-- ==== Sys2Proof/Word.lean ====
section
/-! DEFINITION. The word types of the GLH-4400-FB model and their plainest arithmetic (00_scope R7, R8). -/
namespace Sys2Proof

/-- A control space register (00_scope, Register tables): 32 bits. -/
abbrev Word := BitVec 32
/-- A 128-byte line (R30); byte b lies in bits 8b+7 : 8b (R188). -/
abbrev Line := BitVec 1024
/-- One byte bit per byte of a line (R86). -/
abbrev Mask := BitVec 128
/-- A 40-bit physical byte address (R28). -/
abbrev Addr := BitVec 40
/-- A 16-byte message slot (R53). -/
abbrev MsgSlot := BitVec 128
/-- A 40-byte flit (R40); byte b lies in bits 8b+7 : 8b. -/
abbrev Flit := BitVec 320
/-- A 1,152-bit store frame (R188). -/
abbrev FrameImg := BitVec 1152
/-- A 256-bit key (R259). -/
abbrev Key := BitVec 256

/-- A table of sparse data: key and value pairs, keys strictly rising, no entry equal to what an
unlisted key reads as. -/
abbrev Tbl (α : Type) := List (Nat × α)

end Sys2Proof
end

