-- ==== Sys2Proof/Config.lean ====
section
/-! DEFINITION. What an implementation fixes and the manual does not state, and the free values: constants with no
body, so that a claim holds whatever they are (assumption log entries 6 and 7). -/
namespace Sys2Proof.Config

/-- A fresh value each time, for what the manual leaves open; the argument is State.free (log entry 7). -/
opaque freeNat : Nat → Nat
/-- The content of a DRAM line that nothing has written (R274): what the array holds. -/
opaque dramUnwritten : Nat → Line
/-- A 32-byte challenge of the random generator (R312). -/
opaque freeChallenge : Nat → Key

/-- GLB_ID.stepping (R370). -/
opaque stepping : BitVec 8
/-- The 128-bit unique ID (R310). -/
opaque uniqueId : BitVec 128
/-- The 48-bit I3C provisional ID in OTP (R318). -/
opaque provisionalId : BitVec 48
/-- The ROM version of GET_VERSIONS (R310). -/
opaque romVersion : BitVec 32
/-- The OTP root key, from which KS0 and the key-wrapping key come (R259). -/
opaque otpRootKey : Key
/-- KS0: data, tweak and MAC key, as the boot ROM derives them from the OTP root key (R259). -/
opaque ks0Data : Key → Key
opaque ks0Tweak : Key → Key
opaque ks0Mac : Key → Key
/-- The key-wrapping key of KEY_LOAD, derived from OTP (R259). -/
opaque wrapKey : Key → Key
/-- The firmware compatibility table of the silicon stepping (R302). -/
opaque otpFwMin : Nat
opaque otpFwMax : Nat
opaque otpUcMin : Nat
opaque otpUcMax : Nat
/-- The ECDSA P-384 check of an image against Rimbikor's public key, whose hash OTP holds (R302). -/
opaque signatureOk : List (BitVec 8) → Bool
/-- The header values of an image; the manual gives the header no layout (R302). -/
opaque imageVersion : List (BitVec 8) → BitVec 32
opaque imageFwLevel : List (BitVec 8) → BitVec 8
opaque imageUcLevel : List (BitVec 8) → BitVec 8
opaque imageUcMin : List (BitVec 8) → BitVec 8
opaque imageUcMax : List (BitVec 8) → BitVec 8
/-- The factory record in OTP (R299): equalization preset per link, temperature offset per sensor, write-pulse
width per die and band (index die × 8 + band), read sense reference offset per die. -/
opaque factoryEq : Nat → Int
opaque factoryTemp : Nat → Int
opaque factoryPulse : Nat → Int
opaque factorySense : Nat → Int
/-- The images that the two firmware slots hold at delivery (R302); none: no image. -/
opaque slotA : Option (List (BitVec 8))
opaque slotB : Option (List (BitVec 8))
/-- What a byte of an erased firmware slot holds that FW_UPDATE_DATA has not written (R305); the argument is its offset. -/
opaque erasedByte : Nat → BitVec 8
/-- The status word that GETSTATUS returns (R318): its bits are those of MIPI I3C Basic, which the manual does not
restate; the argument is State.free. -/
opaque i3cStatusWord : Nat → BitVec 16

end Sys2Proof.Config
end

