-- ==== Sys2Proof/Syntax.lean ====
section
/-! DEFINITION. The commands of the block: one constructor of Instr per row of spec/opcode_table.json, with the
operands that the event brings from outside (00_scope, 95_what_each_step_holds). The table gives no row any bits. -/
namespace Sys2Proof

/-- A REQ header as a link partner sends it (R55). The link stop adds the link number (R27). -/
structure Req where
  stream : BitVec 6
  tc : BitVec 3
  priv : BitVec 2
  tag : BitVec 12
  sizeM1 : BitVec 7
  addr : Addr
  atomOp : BitVec 4
  atomSize : BitVec 3
deriving DecidableEq, Repr

/-- An RSP or DAT header from a link partner (R55). -/
structure Rsp where
  stream : BitVec 6
  tc : BitVec 3
  tag : BitVec 12
  status : BitVec 4
  state : BitVec 2
  fwd : Bool
  dirty : Bool
  addr : Addr
deriving DecidableEq, Repr

/-- TS_PARAM contents (R61): tolls in the order REQ, SNP, RSP, DAT, CTL. -/
structure TsParam where
  protoVer : BitVec 8
  maxRate : BitVec 8
  laneOk : BitVec 8
  role : BitVec 8
  req : BitVec 10
  snp : BitVec 10
  rsp : BitVec 10
  dat : BitVec 10
  ctl : BitVec 10
  streamCnt : BitVec 8
deriving DecidableEq, Repr

/-- The bits that each of the three reads of a frame shows inverted (R193): e1 the first read, e2 and e3 the
retries with the raised and the lowered sense reference. All zero: the read shows the stored image. -/
structure FrameErr where
  e1 : FrameImg := 0
  e2 : FrameImg := 0
  e3 : FrameImg := 0
deriving DecidableEq, Repr

/-- Outcome of the link ECC check of one read burst pair (R247). -/
inductive Burst where
  | pass | single | uncorrectable
deriving DecidableEq, Repr

/-- What a DRAM read brings: the outcome of up to three reads (R247), for each of the two bursts of the line, the same for
the tag line where it is read too (R268), and the ciphertext and the tag line that arrive when the array holds something
else than the device last wrote (R275). -/
structure DramIn where
  b1 : Burst := .pass
  b2 : Burst := .pass
  b3 : Burst := .pass
  raw : Option Line := none
  rawTag : Option Line := none
  u1 : Burst := .pass
  u2 : Burst := .pass
  u3 : Burst := .pass
  t1 : Burst := .pass
  t2 : Burst := .pass
  t3 : Burst := .pass
deriving DecidableEq, Repr

/-- What a bank does in the fc in which its refresh falls due (R245): it takes a command, or it is idle, and then the channel
may pull in refreshes, as many as it chooses up to 8. -/
inductive BankUse where
  | busy
  | idle (pull : Fin 9)
deriving DecidableEq, Repr

/-- What training finds on the channels (R237, R249). -/
inductive Train where
  /-- Every channel passes: density code 0-2, two ranks, the rate code the DRAM allows, whether the DRAM forbids
  read DBI together with read link ECC, the identification in mode registers 5 and 8 (R249), and the activate threshold
  where the DRAM declares refresh management required (R246). -/
  | pass (density : Fin 3) (ranks2 : Bool) (rate : BitVec 3) (dbiClash : Bool) (ident : BitVec 16) (rfm : Option Nat)
  /-- Unsupported or unequal configuration. -/
  | mismatch
  /-- A channel fails training. -/
  | fail
deriving DecidableEq, Repr

/-- The straps (R368). -/
structure Straps where
  i3ca : BitVec 2
  recover : Bool
deriving DecidableEq, Repr

/-- What a tick brings (R31, R295): which of the scheduled steps 1 to 6 complete (bit n - 1 for step n; step 7 is WEAR_PERSIST),
the sensor and current monitor samples (items 0-15 of R298), mode register reports (R244, R248), whether the interval
oscillator shows a drift beyond 1/16 of a unit interval (R250), the self-test groups that give a wrong result (R334) and the
energy that the meter of the closed tick counted, in uJ (R361, R362). -/
structure TickIn where
  steps : BitVec 7
  telem : List Word
  dramHot : Bool
  refMult : List (BitVec 3)
  drift : Bool
  wrEccFatal : Bool
  selfFail : BitVec 10
  meter : Nat
deriving DecidableEq, Repr

/-- The two command paths of Signpost (R309). -/
inductive Path where
  | host | i3c
deriving DecidableEq, Repr

/-- The wake causes of Standby (R357). -/
inductive Wake where
  | vmain | link (l : Fin 16) | i3c
deriving DecidableEq, Repr

/-- The commands, in the order of spec/opcode_table.json. -/
inductive Instr where
  | porstNAssert
  | porstNRelease (straps : Straps) (train : Train)
  | keyWaitTimeout
  | warmNFall
  | warmDrainEnd (train : Train)
  | vmainSenseFall (errs : List (Nat × FrameErr))
  | vbakLow
  | vmainSenseRise (train : Train)
  | refclkMissing
  | overTemperatureStop
  | tickBoundary (t : TickIn)
  | scheduledWorkDone
  | tickOverrun
  | wearPersist
  | shoulderDrainDone
  | guardEngage
  | idleEntry
  | idleExit
  | standbyWake (w : Wake)
  | standbyReplyWaitEnd
  | linkDetectPoll (l : Fin 16) (lanes : BitVec 8)
  | absentTimeout (l : Fin 16)
  | syncComplete (l : Fin 16) (laneOk : BitVec 8)
  | syncTimeout (l : Fin 16)
  | paramTimeout (l : Fin 16)
  | eqTimeout (l : Fin 16)
  | retrainTimeout (l : Fin 16)
  | tsSync (l : Fin 16)
  | tsParam (l : Fin 16) (p : TsParam)
  | tsEq (l : Fin 16)
  | tsDone (l : Fin 16)
  | blockLockLoss (l : Fin 16)
  | msgFlit (l : Fin 16) (f : Flit)
  | idleFlit (l : Fin 16) (f : Flit)
  | toll (l : Fin 16) (f : Flit)
  | nak (l : Fin 16) (f : Flit)
  | pwrReq (l : Fin 16) (f : Flit)
  | pwrAck (l : Fin 16) (f : Flit)
  | pwrNak (l : Fin 16) (f : Flit)
  | nakRepeatTimeout (l : Fin 16)
  | replayTimeout (l : Fin 16)
  | tollReturnTimeout (l : Fin 16)
  | lightIdleTimeout (l : Fin 16)
  | deepIdleTimeout (l : Fin 16)
  | linkWakeReceived (l : Fin 16)
  | linkWakeDone (l : Fin 16)
  | ringInsertReserve (stop : Fin 24)
  | presenceAssert (l : Fin 16)
  | presenceDeassert (l : Fin 16)
  | surpriseDetach (l : Fin 16)
  | detachReq (l : Fin 16)
  | detachComplete (l : Fin 16)
  | rdShared (l : Fin 16) (h : Req)
  | rdUnique (l : Fin 16) (h : Req)
  | rdOnce (l : Fin 16) (h : Req)
  | upgrade (l : Fin 16) (h : Req)
  | wbFull (l : Fin 16) (h : Req) (slots : List MsgSlot)
  | evictClean (l : Fin 16) (h : Req)
  | wrFull (l : Fin 16) (h : Req) (slots : List MsgSlot)
  | wrPtl (l : Fin 16) (h : Req) (slots : List MsgSlot)
  | atomic (l : Fin 16) (h : Req) (slots : List MsgSlot)
  | rdRsv (l : Fin 16) (h : Req)
  | wrCond (l : Fin 16) (h : Req) (slots : List MsgSlot)
  | fence (l : Fin 16) (h : Req)
  | enqueueRetry (l : Fin 16)
  | cmp (l : Fin 16) (r : Rsp)
  | data (l : Fin 16) (r : Rsp) (slots : List MsgSlot)
  | snpAck (l : Fin 16) (r : Rsp)
  | snpData (l : Fin 16) (r : Rsp) (slots : List MsgSlot)
  | queueDispatch (port : Fin 1024) (tc : Fin 8)
  | laybyIssue (port : Fin 1024)
  | waitChainAdvance (line : BitVec 30)
  | filterRetry (slice : Fin 8) (set : Fin 256)
  | snoopTimeout (slot : Fin 4096) (l : Fin 16)
  | deadRegionRecovery (slice : Fin 8)
  | frameReadDone (slot : Fin 4096) (e : FrameErr)
  | frameWriteDone (slot : Fin 4096)
  | missTokenTake (port : Fin 1024)
  | dramReadReturn (slot : Fin 4096) (d : DramIn)
  | dramWriteAck (slot : Fin 4096)
  | answerSend (port : Fin 1024) (tc : Fin 8)
  | fenceComplete (port : Fin 1024)
  | targetTimeout (l : Fin 16) (tag : BitVec 12)
  | prefetchIssue (port : Fin 1024)
  | prefetchExpire (port : Fin 1024)
  | ageSweepStart (errs : List Nat)
  | waypointWriteback (parityErr : Bool)
  | correctionRewrite (e : FrameErr) (verify : FrameErr)
  | laneShiftMove (die : Fin 8) (seg : Fin 512) (e : FrameErr)
  | retirementCopy (die : Fin 8) (e : FrameErr)
  | resurfacingVisit (die : Fin 8) (e : FrameErr)
  | refreshDue (ch : Fin 16) (bank : Fin 32) (use : BankUse)
  | rfmDue (ch : Fin 16) (bank : Fin 32) (busy : Bool)
  | writeAgeSwitch (ch : Fin 16)
  | rowIdleClose (ch : Fin 16) (bank : Fin 32)
  | powerDownEntry (ch : Fin 16)
  | selfRefreshEntry (ch : Fin 16)
  | channelRetrain (ch : Fin 16)
  | channelRetrainDone (ch : Fin 16)
  | paveDone (granule : BitVec 21)
  | parkLineMove (slot : Fin 1024) (line : Fin 16384) (e : FrameErr) (d : DramIn)
  | unparkLineMove (slot : Fin 1024) (line : Fin 16384) (e : FrameErr)
  | resizeDone
  | dmaDescriptorFetch (ch : Fin 64)
  | nop (ch : Fin 64)
  | link (ch : Fin 64)
  | copy (ch : Fin 64)
  | fill (ch : Fin 64)
  | pave (ch : Fin 64)
  | park (ch : Fin 64)
  | unpark (ch : Fin 64)
  | clean (ch : Fin 64)
  | inval (ch : Fin 64)
  | cleanInval (ch : Fin 64)
  | dmaReadbackDone (ch : Fin 64)
  | dmaRangeDone (ch : Fin 64)
  | dmaStopComplete (ch : Fin 64)
  | dmaEnable (ch : Fin 64) (v : Word)
  | dmaDisable (ch : Fin 64) (v : Word)
  | dmaShadowArm (ch : Fin 64) (v : Word)
  | quarRelease (l : Fin 16) (v : Word)
  | retrain (l : Fin 16) (v : Word)
  | linkEnable (l : Fin 16) (v : Word)
  | linkDisable (l : Fin 16) (v : Word)
  | maintClean (v : Word)
  | maintInvalidate (v : Word)
  | maintCleanInvalidate (v : Word)
  | lockFill (v : Word)
  | unlockByAddress (v : Word)
  | wayWriteBack (v : Word)
  | wayEvict (v : Word)
  | wayUnlock (v : Word)
  | splitWrite (v : Word)
  | testRead (v : Word) (e : FrameErr)
  | parkSizeWrite (v : Word)
  | vacancyDeclare (v : Word)
  | vacancyWithdraw (v : Word)
  | slotRelease (v : Word)
  | rsvGranuleWrite (v : Word)
  | windowWrite (off : BitVec 23) (v : Word)
  | ksEnWrite (v : Word)
  | cntValLoWrite (n : Fin 64) (v : Word)
  | cntValHiWrite (n : Fin 64) (v : Word)
  | cmdFifoWrite (v : Word)
  | flush (v : Word)
  | replyFifoRead
  | evtLoRead
  | registerWrite (off : BitVec 23) (v : Word)
  | pendingReply (p : Path)
  | sessionIdleClose (p : Path)
  | tollgateLockoutEnd (p : Path)
  | identify (p : Path)
  | getVersions (p : Path)
  | getStatus (p : Path)
  | echo (p : Path)
  | tollgateOpen (p : Path)
  | tollgateAuth (p : Path)
  | tollgateClose (p : Path)
  | tollgateProvision (p : Path)
  | sessionStatus (p : Path)
  | telemRead (p : Path)
  | logRead (p : Path)
  | logClear (p : Path)
  | fwUpdateBegin (p : Path)
  | fwUpdateData (p : Path)
  | fwUpdateCommit (p : Path)
  | fwSlotSelect (p : Path)
  | keyLoad (p : Path)
  | keyUnload (p : Path)
  | keyReady (p : Path)
  | calFactoryRead (p : Path)
  | calTrimRead (p : Path)
  | calTrimWrite (p : Path)
  | softReset (p : Path)
  | shutdown (p : Path)
  | standbyEnter (p : Path)
  | governorSet (p : Path)
  | governorGet (p : Path)
  | wearRead (p : Path)
  | parkMapRead (p : Path)
  | selftestStatus (p : Path)
  | eventDrain (p : Path)
  | i3cPrivateWrite (bytes : List (BitVec 8))
  | i3cPrivateRead
  | i3cHdrEntry
  | enec (events : BitVec 8)
  | disec (events : BitVec 8)
  | rstdaa
  | entdaa (addr : BitVec 7)
  | setdasa (stat : BitVec 7) (addr : BitVec 7)
  | setnewda (addr : BitVec 7)
  | getpid
  | getbcr
  | getdcr
  | getstatus
  | getmwl
  | getmrl
  | unsupportedCcc (direct : Bool)
  | vaonFall
  | vbakRise
  | i3cHdrExit
  | storeSensePowerDown (die : Fin 8)
  | signpostReservedOpcode (p : Path)
deriving DecidableEq, Repr

end Sys2Proof
end

