-- ==== Sys2Proof/WellFormed.lean ====
section
/-! DEFINITION. What a command must be to stand for an event the manual describes: the checks on its operands that the
constructor's types do not make. The meanings are total; a command that fails a check stands for no event. -/
namespace Sys2Proof

/-- Chunks of 16 bytes that `size` bytes from byte `off` of a line touch (R57). -/
def wfChunks (off size : Nat) : Nat := (off % 16 + size - 1) / 16 + 1

/-- A control space register is written at a word offset below 2^23 (R371, R373). -/
def wfOffset (off : BitVec 23) : Bool := off.toNat % 4 == 0

/-- Presence pins exist on CW14 and CW15 only (R72, R73). -/
def wfDetachable (l : Fin 16) : Bool := decide (14 ≤ l.val)

/-- A message of `left` slots is whole (R53, R56, R57). -/
def wfSlots (slots : List MsgSlot) (n : Nat) : Bool := slots.length == n

/-- The data slots of a partial write or a conditional store (R57). -/
def wfPartial (h : Req) (slots : List MsgSlot) : Bool :=
  wfSlots slots (wfChunks h.addr.toNat (h.sizeM1.toNat + 1))

/-- A DATA or SNP_DATA message carries one to eight data slots, or none for a refusal (R57). -/
def wfData (slots : List MsgSlot) : Bool := decide (slots.length ≤ 8)

/-- A frame position list names each frame once. -/
def wfErrs (errs : List (Nat × FrameErr)) : Bool := decide (errs.map Prod.fst).Nodup

/-- Telemetry items 0 to 15 are sampled (R298). -/
def wfTelem (t : TickIn) : Bool := t.telem.length == 16

/-- A window register (R265): word offsets 0x8_0100 to 0x8_04FC. -/
def wfWindow (off : BitVec 23) : Bool := wfOffset off && decide (0x80100 ≤ off.toNat) && decide (off.toNat < 0x80500)

/-- The value of WPC_MAINT_CMD that names operation `op` and has `go` at 1 (R174, R186). -/
def wfMaint (v : Word) (op : Nat) : Bool := v.getLsbD 31 && (v.extractLsb' 0 4).toNat == op

/-- The checks by command. A command that is a write of a register is one whose value asks for the effect its row names. -/
def Instr.wf : Instr → Bool
  | .porstNAssert => true
  | .porstNRelease _ _ => true
  | .keyWaitTimeout => true
  | .warmNFall => true
  | .warmDrainEnd _ => true
  | .vmainSenseFall errs => wfErrs errs
  | .vbakLow => true
  | .vmainSenseRise _ => true
  | .refclkMissing => true
  | .overTemperatureStop => true
  | .tickBoundary t => wfTelem t
  | .scheduledWorkDone => true
  | .tickOverrun => true
  | .wearPersist => true
  | .shoulderDrainDone => true
  | .guardEngage => true
  | .idleEntry => true
  | .idleExit => true
  | .standbyWake _ => true
  | .standbyReplyWaitEnd => true
  | .linkDetectPoll _ _ => true
  | .absentTimeout _ => true
  | .syncComplete _ _ => true
  | .syncTimeout _ => true
  | .paramTimeout _ => true
  | .eqTimeout _ => true
  | .retrainTimeout _ => true
  | .tsSync _ => true
  | .tsParam _ _ => true
  | .tsEq _ => true
  | .tsDone _ => true
  | .blockLockLoss _ => true
  | .msgFlit _ _ => true
  | .idleFlit _ _ => true
  | .toll _ _ => true
  | .nak _ _ => true
  | .pwrReq _ _ => true
  | .pwrAck _ _ => true
  | .pwrNak _ _ => true
  | .nakRepeatTimeout _ => true
  | .replayTimeout _ => true
  | .tollReturnTimeout _ => true
  | .lightIdleTimeout _ => true
  | .deepIdleTimeout _ => true
  | .linkWakeReceived _ => true
  | .linkWakeDone _ => true
  | .ringInsertReserve _ => true
  | .presenceAssert l => wfDetachable l
  | .presenceDeassert l => wfDetachable l
  | .surpriseDetach l => wfDetachable l
  | .detachReq _ => true
  | .detachComplete _ => true
  | .rdShared _ _ => true
  | .rdUnique _ _ => true
  | .rdOnce _ _ => true
  | .upgrade _ _ => true
  | .wbFull _ _ slots => wfSlots slots 8
  | .evictClean _ _ => true
  | .wrFull _ _ slots => wfSlots slots 8
  | .wrPtl _ h slots => wfPartial h slots
  | .atomic _ h slots => wfSlots slots (if h.atomSize = 4 then 2 else 1)
  | .rdRsv _ _ => true
  | .wrCond _ h slots => wfPartial h slots
  | .fence _ _ => true
  | .enqueueRetry _ => true
  | .cmp _ _ => true
  | .data _ _ slots => wfData slots
  | .snpAck _ _ => true
  | .snpData _ _ slots => wfData slots
  | .queueDispatch _ _ => true
  | .laybyIssue _ => true
  | .waitChainAdvance _ => true
  | .filterRetry _ _ => true
  | .snoopTimeout _ _ => true
  | .deadRegionRecovery _ => true
  | .frameReadDone _ _ => true
  | .frameWriteDone _ => true
  | .missTokenTake _ => true
  | .dramReadReturn _ _ => true
  | .dramWriteAck _ => true
  | .answerSend _ _ => true
  | .fenceComplete _ => true
  | .targetTimeout _ _ => true
  | .prefetchIssue _ => true
  | .prefetchExpire _ => true
  | .ageSweepStart errs => decide errs.Nodup
  | .waypointWriteback _ => true
  | .correctionRewrite _ _ => true
  | .laneShiftMove _ _ _ => true
  | .retirementCopy _ _ => true
  | .resurfacingVisit _ _ => true
  | .refreshDue _ _ _ => true
  | .rfmDue _ _ _ => true
  | .writeAgeSwitch _ => true
  | .rowIdleClose _ _ => true
  | .powerDownEntry _ => true
  | .selfRefreshEntry _ => true
  | .channelRetrain _ => true
  | .channelRetrainDone _ => true
  | .paveDone _ => true
  | .parkLineMove _ _ _ _ => true
  | .unparkLineMove _ _ _ => true
  | .resizeDone => true
  | .dmaDescriptorFetch _ => true
  | .nop _ => true
  | .link _ => true
  | .copy _ => true
  | .fill _ => true
  | .pave _ => true
  | .park _ => true
  | .unpark _ => true
  | .clean _ => true
  | .inval _ => true
  | .cleanInval _ => true
  | .dmaReadbackDone _ => true
  | .dmaRangeDone _ => true
  | .dmaStopComplete _ => true
  | .dmaEnable _ v => v.getLsbD 0
  | .dmaDisable _ v => !(v.getLsbD 0)
  | .dmaShadowArm _ v => v.getLsbD 31
  | .quarRelease _ v => v.getLsbD 5
  | .retrain _ v => v.getLsbD 6
  | .linkEnable _ v => v.getLsbD 0
  | .linkDisable _ v => !(v.getLsbD 0)
  | .maintClean v => wfMaint v 1
  | .maintInvalidate v => wfMaint v 2
  | .maintCleanInvalidate v => wfMaint v 3
  | .lockFill v => wfMaint v 4
  | .unlockByAddress v => wfMaint v 5
  | .wayWriteBack v => wfMaint v 8
  | .wayEvict v => wfMaint v 9
  | .wayUnlock v => wfMaint v 10
  | .splitWrite v => v.getLsbD 31 && !(v.getLsbD 9)
  | .testRead v _ => v.getLsbD 31 && v.getLsbD 9
  | .parkSizeWrite _ => true
  | .vacancyDeclare v => v.getLsbD 31 && !(v.getLsbD 17)
  | .vacancyWithdraw v => v.getLsbD 31 && v.getLsbD 17
  | .slotRelease v => v.getLsbD 31
  | .rsvGranuleWrite _ => true
  | .windowWrite off _ => wfWindow off
  | .ksEnWrite _ => true
  | .cntValLoWrite _ _ => true
  | .cntValHiWrite _ _ => true
  | .cmdFifoWrite _ => true
  | .flush v => v.getLsbD 0
  | .replyFifoRead => true
  | .evtLoRead => true
  | .registerWrite off _ => wfOffset off
  | .pendingReply _ => true
  | .sessionIdleClose _ => true
  | .tollgateLockoutEnd _ => true
  | .identify _ => true
  | .getVersions _ => true
  | .getStatus _ => true
  | .echo _ => true
  | .tollgateOpen _ => true
  | .tollgateAuth _ => true
  | .tollgateClose _ => true
  | .tollgateProvision _ => true
  | .sessionStatus _ => true
  | .telemRead _ => true
  | .logRead _ => true
  | .logClear _ => true
  | .fwUpdateBegin _ => true
  | .fwUpdateData _ => true
  | .fwUpdateCommit _ => true
  | .fwSlotSelect _ => true
  | .keyLoad _ => true
  | .keyUnload _ => true
  | .keyReady _ => true
  | .calFactoryRead _ => true
  | .calTrimRead _ => true
  | .calTrimWrite _ => true
  | .softReset _ => true
  | .shutdown _ => true
  | .standbyEnter _ => true
  | .governorSet _ => true
  | .governorGet _ => true
  | .wearRead _ => true
  | .parkMapRead _ => true
  | .selftestStatus _ => true
  | .eventDrain _ => true
  | .i3cPrivateWrite bytes => decide (bytes.length ≤ 4096)
  | .i3cPrivateRead => true
  | .i3cHdrEntry => true
  | .enec _ => true
  | .disec _ => true
  | .rstdaa => true
  | .entdaa _ => true
  | .setdasa _ _ => true
  | .setnewda _ => true
  | .getpid => true
  | .getbcr => true
  | .getdcr => true
  | .getstatus => true
  | .getmwl => true
  | .getmrl => true
  | .unsupportedCcc _ => true
  | .vaonFall => true
  | .vbakRise => true
  | .i3cHdrExit => true
  | .storeSensePowerDown _ => true
  | .signpostReservedOpcode _ => true

end Sys2Proof
end

