-- ==== Sys2Proof/Machine/State.lean ====
section
/-! DEFINITION. The state of the GLH-4400-FB as plain data, its value right after reset, and the reasons a step can
stop. Tables hold only what differs from what an unlisted key reads as; the default of each table is the reset value
of its item (R16) and stands beside it. -/
namespace Sys2Proof.Machine

/-- Why a step can stop with a fault: nobody raises one, because every event the manual names leaves a next state
(class D and X errors are states of their own, R338). Safe. -/
inductive Fault where
  /-- Raised by no meaning of this model; safe. -/
  | none
deriving DecidableEq, Repr

/-- Why a step can be refused. -/
inductive Refusal where
  /-- Raised by an arm of exec whose command has no meaning yet; safe. -/
  | notModelled (mnemonic : String)
deriving DecidableEq, Repr

/-! ### Registers -/

/-- A control space word as it is stored: three copies (R12, R14); a field that is not voted reads copy a. -/
structure Reg3 where
  a : Word
  b : Word
  c : Word
deriving DecidableEq, Repr

/-! ### Causeway links -/

/-- Link states with the codes of R60 in this order. -/
inductive LinkState where
  | disabled | detect | sync | param | eq | active | sleepLight | sleepDeep | retrain | absent | detached
  | quarantine | dead
deriving DecidableEq, Repr

/-- One count for each message class (R48). -/
structure Tolls where
  req : Nat
  snp : Nat
  rsp : Nat
  dat : Nat
  ctl : Nat
deriving DecidableEq, Repr

/-- A message the device sends: header slot (R55) and data slots (R57). -/
structure Msg where
  hdr : MsgSlot
  data : List MsgSlot
deriving DecidableEq, Repr

/-- A MSG flit that was sent and is not acknowledged: what the replay buffer resends (R46, R53). -/
structure TxFlit where
  seq : Nat
  kind0 : BitVec 2
  kind1 : BitVec 2
  slot0 : MsgSlot
  slot1 : MsgSlot
deriving DecidableEq, Repr

/-- A tag of the device in use on a peer window link (R54, R70). -/
structure DevTag where
  tag : Nat
  isRead : Bool
  port : Nat
  tc : Nat
  ansId : Nat
  addr : Nat
  size : Nat
  timedOut : Bool
deriving DecidableEq, Repr

/-- A refused request that waits in the link receive buffer (R78, R81): `budget` when it was refused for its port's
budget (R79), `paid` while its slots of the buffer count as held by the link (R49, R71). -/
structure HeldReq where
  op : BitVec 6
  h : Req
  slots : List MsgSlot
  id : Nat
  budget : Bool
  crossed : Bool
  paid : Bool
deriving DecidableEq, Repr

/-- The message being reassembled from MSG flits (R53): its header, the data slots received, and how many are still to
come. -/
structure Asm where
  hdr : MsgSlot
  data : List MsgSlot
  left : Nat
deriving DecidableEq, Repr

/-- One link stop (R34 to R76). `paramSame`: identical TS_PARAM flits in a row, `paramSent`: TS_PARAM flits sent since the
first of them (R61); `snpTags`: tags of unanswered snoops, with whether the CMP of a WB_FULL for the snoop's line left
after the snoop (R122); `wbOpen`: tag and line of each WB_FULL whose CMP has not left; `wbDone`: CMPs of WB_FULLs, with
their place in the order, that wait for earlier snoops to leave (R137). -/
structure Link where
  state : LinkState
  rate : Nat
  x4 : Bool
  lanesHi : Bool
  laneGood : BitVec 8
  roleCaching : Bool
  roleForced : Bool
  peerWindows : Bool
  streamCntM1 : Nat
  present : Bool
  prsntHigh : Bool
  debounce : Bool
  retrainCnt : Nat
  retrainsTick : Nat
  rateLow : Nat
  trainFails : Nat
  lastParam : Option TsParam
  paramSame : Nat
  paramSent : Nat
  adv : Tolls
  txAvail : Tolls
  txSent : Tolls
  txRet : Tolls
  txRetSeen : Tolls
  rxHeld : Tolls
  rxFreed : Tolls
  rxRet : Tolls
  txSeq : Nat
  rxExp : Nat
  rxAckVld : Bool
  nakOut : Bool
  replayBuf : List TxFlit
  replayRun : Nat
  assembly : Option Asm
  reqTags : List Nat
  devTags : List DevTag
  snpTags : List (Nat × Bool)
  wbOpen : List (Nat × Nat)
  wbDone : List (Nat × Msg)
  held : List HeldReq
  txWait : List Msg
  detaching : Bool
  pwrOut : Option Nat
  waking : Bool
  deepWake : Bool
  eqPreset : Int
  eqKeep : Bool
deriving DecidableEq, Repr

def Tolls.zero : Tolls := ⟨0, 0, 0, 0, 0⟩

/-- A link stop after reset (R76): DETECT, nothing trained; CWn_PRSNT_N is high before anything drives it (log entry 5). -/
def Link.init : Link where
  state := .detect
  rate := 0
  x4 := false
  lanesHi := false
  laneGood := 0
  roleCaching := false
  roleForced := false
  peerWindows := false
  streamCntM1 := 0
  present := false
  prsntHigh := true
  debounce := false
  retrainCnt := 0
  retrainsTick := 0
  rateLow := 0
  trainFails := 0
  lastParam := none
  paramSame := 0
  paramSent := 0
  adv := .zero
  txAvail := .zero
  txSent := .zero
  txRet := .zero
  txRetSeen := .zero
  rxHeld := .zero
  rxFreed := .zero
  rxRet := .zero
  txSeq := 0
  rxExp := 0
  rxAckVld := false
  nakOut := false
  replayBuf := []
  replayRun := 0
  assembly := none
  reqTags := []
  devTags := []
  snpTags := []
  wbOpen := []
  wbDone := []
  held := []
  txWait := []
  detaching := false
  pwrOut := none
  waking := false
  deepWake := false
  eqPreset := 0
  eqKeep := false

/-! ### Ports, queues and lay-bys -/

/-- A request in a queue: one pool entry (R78). part: 0 whole, 1 lower and 2 upper part of a split access (R140). -/
structure QEnt where
  id : Nat
  op : BitVec 6
  tag : BitVec 12
  priv : BitVec 2
  addr : Addr
  size : Nat
  atomOp : BitVec 4
  atomSize : BitVec 3
  ops : Line
  part : Nat
  busErr : Bool
  peer : Option Nat
  reserved : Bool
  crossed : Bool
deriving DecidableEq, Repr

/-- What one part of an answer brings: status (R58), granted state, and the line's bytes. -/
structure PartRes where
  status : BitVec 4
  state : BitVec 2
  line : Line
  order : Nat
deriving DecidableEq, Repr

/-- An answer in the order of its queue (R142). isData: DATA, otherwise CMP. -/
structure Ans where
  id : Nat
  tag : BitVec 12
  priv : BitVec 2
  isData : Bool
  atom : Bool
  addr : Addr
  size : Nat
  split : Bool
  lo : Option PartRes
  hi : Option PartRes
  forwarded : Bool
deriving DecidableEq, Repr

/-- One queue: its requests and the answers it owes, both oldest first (R28, R142). -/
structure Queue where
  ents : List QEnt
  answers : List Ans
deriving DecidableEq, Repr

def Queue.init : Queue := ⟨[], []⟩

/-- The state of the SEC-DED codes of a lay-by entry (R86). -/
inductive Ecc where
  | clean | corr | uncorr
deriving DecidableEq, Repr

/-- Where a lay-by entry drains to (R89). -/
inductive LbDest where
  | mem
  | peer (l : Nat)
  | control
deriving DecidableEq, Repr

/-- A lay-by entry (R86). -/
structure LbEnt where
  id : Nat
  op : BitVec 6
  tag : BitVec 12
  tc : BitVec 3
  priv : BitVec 2
  addr : Addr
  size : Nat
  line : Nat
  data : Line
  mask : Mask
  dest : LbDest
  issuing : Bool
  ecc : Ecc
deriving DecidableEq, Repr

/-- The FENCE in the port's fence logic (R143). -/
structure FenceRec where
  id : Nat
  tc : BitVec 3
  tag : BitVec 12
  priv : BitVec 2
deriving DecidableEq, Repr

/-- A stride detector (R171). -/
structure Stride where
  last : Nat
  stride : Int
  conf : Nat
  issued : Bool
deriving DecidableEq, Repr

/-- A prefetch that waits in its detector's issue queue (R172), with the privilege and class of the read that generated
it. -/
structure PfReq where
  line : Nat
  priv : BitVec 2
  tc : BitVec 3
deriving DecidableEq, Repr

/-- What the device keeps for one port; `poolWas` and `slotWas`: PRT_BUDGET.`pool_max` and `slot_max` before they were last
lowered (R97). -/
structure Port where
  layby : List LbEnt
  accepted : Nat
  merged : Nat
  released : Nat
  missToken : Option Nat
  parked : List Nat
  fences : List Nat
  fence : Option FenceRec
  lossFlag : Bool
  lossCnt : Nat
  rsv : Option Nat
  rsvOrder : Nat
  stride : Stride
  pfq : List PfReq
  pfUsed : Nat
  excess : Bool
  strikes : Nat
  poolWas : Nat
  slotWas : Nat
deriving DecidableEq, Repr

def Port.init : Port where
  layby := []
  accepted := 0
  merged := 0
  released := 0
  missToken := none
  parked := []
  fences := []
  fence := none
  lossFlag := false
  lossCnt := 0
  rsv := none
  rsvOrder := 0
  stride := ⟨0, 0, 0, false⟩
  pfq := []
  pfUsed := 0
  excess := false
  strikes := 0
  poolWas := 0
  slotWas := 0

/-! ### Home engine -/

/-- Home line states with the codes of R187 in this order. -/
inductive HState where
  | hi | hc | hd | hlc | hld | hp
deriving DecidableEq, Repr

/-- What a transaction at the home does (R115, R174, R169, R107, R125, R127, R220). -/
inductive TxKind where
  | rdShared | rdUnique | rdOnce | rdRsv | upgrade | evictClean | wbFull | wrFull | wrPtl | wrCond | atomic
  | prefetch | mClean | mInval | mCleanInval | lockFill | writeBack | lineRecall | candRecall | regionRecall
  | deadRegion | parkMove
deriving DecidableEq, Repr

/-- Who asked for a transaction; `dmaGone`: a DMA channel that has entered ERROR since and takes no result (R287). -/
inductive Origin where
  | port (p : Nat) (tc : Nat)
  | dma (ch : Nat)
  | dmaFetch (ch : Nat)
  | dmaBack (ch : Nat)
  | dmaGone (ch : Nat)
  | maint
  | self
deriving DecidableEq, Repr

/-- How far a registered transaction is. `closing`: closed at the home while snoop answers are still outstanding, which
only hold the slot's `snp_tag` (R118). -/
inductive Phase where
  | chained | regionWait | pave | lookup | gather | place | closing
deriving DecidableEq, Repr

/-- Relation of a transaction to its frame in the interlock (R163). -/
inductive FrameUse where
  | no | waiting | reading | opened
deriving DecidableEq, Repr

/-- Relation of a transaction to its DRAM read (R93). -/
inductive DramUse where
  | no | parked | reading | got
deriving DecidableEq, Repr

/-- Where the home copy was found (R159). -/
inductive Src where
  | way (i : Nat)
  | frame
  | dram
  | victim
  | zeros
deriving DecidableEq, Repr

/-- Placement work a transaction still has to do, in order (R165). -/
inductive Act where
  /-- Take a way for the line with this state, dirty bit and data; when no way is allowed: write the frame
  directly (true) or do nothing (false). -/
  | alloc (st : HState) (dirty : Bool) (data : Line) (direct : Bool)
  /-- Write the line's frame with this state and data (frame fill or direct frame write). -/
  | writeFrame (st : HState) (data : Line)
  /-- Write the line to its DRAM address. -/
  | writeDram (data : Line)
  /-- Write back the way with this index to its frame, then invalidate it if asked. -/
  | cleanWay (i : Nat) (drop : Bool)
  /-- Lock the line into this way (R175). -/
  | lockWay (i : Nat)
  /-- Rewrite the frame with this state and data if it holds the line (R174). -/
  | fixFrame (st : HState) (data : Line)
  /-- Take a way for a line of a closed frame that must be lent, waiting until one is allowed (R165). -/
  | allocWait (st : HState) (data : Line)
  /-- Invalidate the way that holds the line (R174). -/
  | dropLine
  /-- Empty the way with this index of its line, with a recall where it is lent (R177). -/
  | evictWay (i : Nat)
deriving DecidableEq, Repr

/-- A line on its way to DRAM out of a slot's buffer (R123). -/
structure Victim where
  line : Nat
  data : Line
deriving DecidableEq, Repr

/-- A transaction slot in use (R24). `aux` and `cands` serve the handling of an unrecoverable frame (R197): lines
poisoned so far and candidates still to judge; `granted` says that the answer of the slot has been formed, `badData`
that the data it writes is poisoned (R86, R283), `frameNo` when the slot asked for its frame (R163), `putNo` when its
placement was decided, `refetch` that the frame or DRAM is read for a way that failed its parity (R178), `buf` the lines
that a region recall has received and not yet placed (R107), `lines` those of a region still to be gone through (R107,
R127), `fkey` the region's filter entry, `agent` the dead link or the park slot that the transaction is for (R127, R220). -/
structure Slot where
  kind : TxKind
  org : Origin
  line : Nat
  ansId : Nat
  part : Nat
  tag : BitVec 12
  priv : BitVec 2
  addr : Addr
  size : Nat
  data : Line
  mask : Mask
  atomOp : BitVec 4
  atomSize : BitVec 3
  crossed : Bool
  regNo : Nat
  order : Nat
  putNo : Nat
  phase : Phase
  fuse : FrameUse
  frameKey : Nat
  frameNo : Nat
  frame : Option FrameImg
  refetch : Bool
  hs : HState
  src : Src
  copy : Option Line
  poisoned : Bool
  snpOp : BitVec 6
  snpOut : BitVec 16
  snpRest : BitVec 16
  got : Option Line
  gotDirty : Bool
  keptS : Bool
  forwarded : Bool
  deadMet : Bool
  dram : DramUse
  victims : List Victim
  wrImg : Option FrameImg
  todo : List Act
  forSlot : Option Nat
  condOk : Bool
  granted : Bool
  badData : Bool
  cands : List Nat
  buf : List (Nat × Line)
  lines : List Nat
  fkey : Nat
  agent : Nat
  aux : Nat
deriving DecidableEq, Repr

/-- A junction filter entry (R104); `open` is counted from the slots. -/
structure FEnt where
  region : Nat
  presence : BitVec 16
  owner : Option Nat
  recalling : Bool
  lru : Nat
deriving DecidableEq, Repr

/-- The home engine; `recovering` lists link and filter key of regions that await dead-agent recovery (R127),
`recallDue` the filter keys of regions that a detach or the shoulder drain has still to recall (R72, R339),
`snooped` the link and line of every snoop of a lent line since the link's last grant of it (R121). A slot's key is slice × 512 + slot (R54); a filter entry's key is slice × 4,096 + set × 16 + way;
a chain's key is the line. -/
structure Home where
  slots : Tbl (Option Slot)
  filter : Tbl (Option FEnt)
  chains : Tbl (List Nat)
  heldSet : List (Nat × Nat × Nat)
  wide : Option Bool
  dead : BitVec 16
  claimLink : Nat
  claimKind : Nat
  poisoned : Nat
  recovering : List (Nat × Nat)
  recallDue : List Nat
  snooped : List (Nat × Nat)
deriving DecidableEq, Repr

def Home.init : Home := ⟨[], [], [], [], none, 0, 0, 0, 0, [], [], []⟩

/-! ### Waypoint cache -/

/-- A waypoint way (R158); `tpar` is stored so that a tag upset can be told. -/
structure Way where
  valid : Bool
  wtag : Nat
  hstate : HState
  wdirtyA : Bool
  wdirtyB : Bool
  lock : Bool
  stamp : Nat
  ref : Bool
  tpar : Bool
  dataBad : Bool
  data : Line
deriving DecidableEq, Repr

def Way.init : Way := ⟨false, 0, .hi, false, false, false, 0, false, false, false, 0⟩

/-- A write-back that waits for its home transaction (R169): way, its line, whether it is an age write-back, and
the slot that waits for the way. -/
structure WbReq where
  way : Nat
  line : Nat
  age : Bool
  drop : Bool
deriving DecidableEq, Repr

/-- The waypoint cache: ways keyed set × 16 + way; `grantPort`, `grantPool`, `grantCap` the values of WPC_PF_CTRL,
WPC_PF_POOL and WPC_PF_DIECAP that step 4 staged last (R296), `portTokens` what each port got in this tick, `diePf` the
prefetch frame reads that each die still accepts in it (R173); `maintWait` an accepted WPC_MAINT_CMD that waits for a
slot; `tagOnce` the sets whose next read shows a tag parity error that a second read does not (R179). -/
structure Waypoint where
  ways : Tbl Way
  tagOnce : List Nat
  wbq : List WbReq
  sixteenth : Nat
  grantPort : Nat
  grantPool : Nat
  grantCap : Nat
  portTokens : Nat
  poolTokens : Nat
  diePf : Tbl Nat
  maintBusy : Bool
  maintResult : BitVec 3
  maintWait : Option Word
deriving DecidableEq, Repr

def Waypoint.init : Waypoint where
  ways := []
  tagOnce := []
  wbq := []
  sixteenth := 0
  grantPort := 32
  grantPool := 0x20000
  grantCap := 0x7A12
  portTokens := 0
  poolTokens := 0
  diePf := []
  maintBusy := false
  maintResult := 0
  maintWait := none

/-! ### Store -/

/-- A detour word (R200): physical segment, slot and spare frame. -/
structure Detour where
  pseg : Nat
  slot : Nat
  spare : Nat
deriving DecidableEq, Repr

/-- Lane shift state of a logical segment (R203, R204). -/
structure Lane where
  start : Nat
  gap : Nat
  owed : Nat
  writes : Nat
deriving DecidableEq, Repr

def Lane.init : Lane := ⟨0, 8192, 0, 0⟩

/-- Lifetime counter of a physical segment: units of 2^20 and the count below one unit (R205). -/
structure Life where
  units : Nat
  rem : Nat
deriving DecidableEq, Repr

/-- A retirement in progress (R206): old physical segment, logical segment, spare index, copy pointer. -/
structure Retire where
  old : Nat
  lseg : Nat
  spare : Nat
  ptr : Nat
  lane : Lane
deriving DecidableEq, Repr

/-- One store die. -/
structure Die where
  detours : Tbl (Option Detour)
  failedSpares : List Nat
  closure : Tbl (Option (Nat × Nat))
  segMap : Tbl (Option Nat)
  closed : List Nat
  lanes : Tbl Lane
  life : Tbl Life
  persisted : Tbl Nat
  retire : Option Retire
  retireDue : List Nat
  passPos : Nat
  passSaved : Nat
  lsReads : Nat
  lsWrites : Nat
  rsReads : Nat
  rsWrites : Nat
  asleep : Bool
deriving DecidableEq, Repr

def Die.init : Die := ⟨[], [], [], [], [], [], [], [], none, [], 0, 0, 0, 0, 0, 0, false⟩

/-- A rewrite owed to a corrected frame (R194): its key, the write count of the frame when it was read, whether a
verify read follows, the requesting port. -/
structure Correction where
  key : Nat
  image : FrameImg
  read : FrameImg
  verify : Bool
  port : Option Nat
deriving DecidableEq, Repr

/-- The store controller and its dies; frames keyed by physical place (Ops, frame keys). `nextClear` is what STO_STATUS
shows since the reset, `clearSaved` the record of the system segment, which counts as set at manufacture (log entry 5). -/
structure Store where
  frames : Tbl FrameImg
  dies : Tbl Die
  epoch : Nat
  epochSaved : Nat
  passBusy : Bool
  nextClear : Bool
  clearSaved : Bool
  corr : Nat
  corrections : List Correction
  wearClean : Bool
  lsStaged : Word
  rsStaged : Word
  testOutcome : BitVec 2
  testA : Nat
  testB : Nat
deriving DecidableEq, Repr

def Store.init : Store where
  frames := []
  dies := []
  epoch := 0
  epochSaved := 0
  passBusy := false
  nextClear := false
  clearSaved := true
  corr := 0
  corrections := []
  wearClean := true
  lsStaged := 0xB71A7A12
  rsStaged := 0xB71A7A12
  testOutcome := 0
  testA := 0
  testB := 0

/-! ### Parking -/

/-- Park slot states with the codes of R217 in this order. -/
inductive PState where
  | free | parking | parked | unparking | lost | closed | moving
deriving DecidableEq, Repr

/-- A park map entry (R217, R220): the region, generation, the lines whose move has completed, the next line to start, and
the lines that left for the normal path because the spill list was full (R223). For MOVING the target slot, for UNPARKING
whether the slot closes afterwards (R222). -/
structure PSlot where
  region : Nat
  pstate : PState
  gen : Nat
  moved : List Nat
  next : Nat
  out : List Nat
  target : Option Nat
  thenClose : Bool
deriving DecidableEq, Repr

def PSlot.init : PSlot := ⟨0, .free, 0, [], 0, [], none, false⟩

/-- Kinds of a seal record (R228). -/
inductive SealKind where
  | standby | shutdown | drained
deriving DecidableEq, Repr

/-- The seal record (R228). -/
structure Seal where
  kind : SealKind
  epoch : Nat
  parkSize : Nat
  memCode : Nat
  kcv : BitVec 64
  ksMask : BitVec 16
  vacant : List Nat
  crcOk : Bool
deriving DecidableEq, Repr

/-- Parking and persistence; `drainShort`: the last drain stopped on low VBAK (R232); `resizeDue` the lines that a resize has still to clean and invalidate (R185). -/
structure Park where
  slots : Tbl PSlot
  size : Nat
  sizeSaved : Nat
  resize : Option Nat
  resizeDue : List Nat
  vacant : List Nat
  spill : List Nat
  sealRec : Option Seal
  retention : Bool
  saved : Tbl Reg3
  poisonSaved : Tbl (Option Nat)
  pavedSaved : List Nat
  bootKind : Nat
  vacBusy : Bool
  vacResult : BitVec 2
  segOff : BitVec 8
  drainShort : Bool
deriving DecidableEq, Repr

def Park.init : Park where
  slots := []
  size := 0
  sizeSaved := 0
  resize := none
  resizeDue := []
  vacant := []
  spill := []
  sealRec := none
  retention := false
  saved := []
  poisonSaved := []
  pavedSaved := []
  bootKind := 0
  vacBusy := false
  vacResult := 0
  segOff := 0
  drainShort := false

/-! ### Main memory -/

/-- Channel power states with the codes of R255 in this order; off has no code of its own (R253). -/
inductive ChState where
  | active | powerDown | selfRefresh | pasr | deepSleep | off
deriving DecidableEq, Repr

/-- A command at a channel (R240): a read or write of a line for a transaction slot. `own` is the line of data that the slot
reads or, with `back`, writes: the tag line of an integrity window moves with it (R268). `src` is the source that offers it;
`issued`: the channel has issued it. -/
structure DramCmd where
  slot : Nat
  own : Nat
  back : Bool
  line : Nat
  src : Nat
  write : Bool
  issued : Bool
deriving DecidableEq, Repr

/-- One LPDDR5X channel controller (R240 to R250): its queues, the commands offered that wait for room in
them, refreshes owed and pulled in by bank, the refresh rate in use and the one that was read last. -/
structure Chan where
  pstate : ChState
  refMult : BitVec 3
  refNext : BitVec 3
  owed : Tbl Nat
  ahead : Tbl Nat
  rfmOwed : Tbl Nat
  rows : Tbl (Option Nat)
  activates : Tbl Nat
  reads : List DramCmd
  writes : List DramCmd
  offers : List DramCmd
  draining : Bool
  retraining : Bool
  retrainCnt : Nat
  eccTick : Nat
  wdqDelay : Nat
  rdqDelay : Nat
deriving DecidableEq, Repr

def Chan.init : Chan := ⟨.active, 0, 0, [], [], [], [], [], [], [], [], false, false, 0, 0, 0, 0⟩

/-- Main memory: the channels, the installed configuration (R237), the poison list (R251), and the array contents
(ciphertext, and tag lines of integrity windows) by line address; `overflow`: a line found the list full, and the halt of
R198 is still to come; `losses` counts for each PASR segment how often its
contents were lost (R226, R233). -/
structure Mem where
  chans : Tbl Chan
  trained : Bool
  density : Nat
  ranks2 : Bool
  rate : BitVec 3
  dbiOff : Bool
  linkEcc : Bool
  saved : Option (BitVec 16)
  rfm : Option Nat
  eccCnt : Nat
  poison : Tbl (Option Nat)
  overflow : Bool
  array : Tbl (Option Line)
  losses : Tbl Nat
deriving DecidableEq, Repr

def Mem.init : Mem := ⟨[], false, 0, false, 0, false, true, none, none, 0, [], false, [], []⟩

/-! ### Encryption -/

/-- The three keys of a key slot (R259). -/
structure Keys where
  data : Key
  tweak : Key
  mac : Key
deriving DecidableEq, Repr

/-- A tag line in a home slice's tag buffer (R268). -/
structure TagEnt where
  addr : Nat
  line : Line
  dirty : Bool
  ecc : Ecc
deriving DecidableEq, Repr

/-- Key slots, paving and tag buffers. -/
structure Crypt where
  keys : Tbl (Option Keys)
  paved : List Nat
  paving : List Nat
  paveWait : List Nat
  tagbuf : Tbl (List TagEnt)
  alarmPort : Nat
  alarmNoPort : Bool
  alarmAddr : Addr
deriving DecidableEq, Repr

def Crypt.init : Crypt := ⟨[], [], [], [], [], 0, false, 0⟩

/-! ### DMA engine -/

/-- Channel states with the codes of R294 in this order. -/
inductive ChanState where
  | idle | run | stopping | stopped | error
deriving DecidableEq, Repr

/-- A descriptor (R278). -/
structure Desc where
  addr : Nat
  op : BitVec 4
  last : Bool
  irq : Bool
  tag : BitVec 16
  length : Nat
  src : Addr
  dst : Addr
  param : BitVec 64
deriving DecidableEq, Repr

/-- Progress of the descriptor that runs: lines read and written so far, writes issued ahead of an earlier line, read data that waits to be written, transactions in
flight, why issue has ended, and the read-back (0 none, 1 under way, 2 OK, 3 poison, 4 integrity failure, 5 halted). -/
structure Prog where
  nextRead : Nat
  nextWrite : Nat
  early : List Nat
  doneLines : List Nat
  buf : Tbl (Option Line)
  poisonLines : List Nat
  inFlight : Nat
  badReason : Nat
  poison : Bool
  halted : Bool
  readBack : Nat
deriving DecidableEq, Repr

def Prog.init : Prog := ⟨0, 0, [], [], [], [], 0, 0, false, false, 0⟩

/-- One DMA channel (R277 to R294). -/
structure DmaCh where
  state : ChanState
  listAddr : Nat
  shadow : Option (Nat × BitVec 4)
  taken : BitVec 4
  fetchAddr : Nat
  fetchBusy : Bool
  fetched : Option (Option Line × Nat)
  descs : List Desc
  tokens : Nat
  cur : Option Desc
  prog : Prog
  ad : BitVec 4
  status : BitVec 3
  reason : BitVec 4
  lastTag : BitVec 16
  descAddr : Nat
  resume : Nat
  doneCnt : Word
deriving DecidableEq, Repr

def DmaCh.init : DmaCh where
  state := .idle
  listAddr := 0
  shadow := none
  taken := 0
  fetchAddr := 0
  fetchBusy := false
  fetched := none
  descs := []
  tokens := 0
  cur := none
  prog := .init
  ad := 0
  status := 0
  reason := 0
  lastTag := 0
  descAddr := 0
  resume := 0
  doneCnt := 0

/-! ### Management -/

/-- A tollgate session (R312, R313). -/
structure Session where
  level : Nat
  key : Key
  lastSeq : Option Nat
  fails : Nat
  idle : Nat
deriving DecidableEq, Repr

/-- A challenge given out by TOLLGATE_OPEN (R312). -/
structure Challenge where
  level : Nat
  nonce : BitVec 128
  value : Key
deriving DecidableEq, Repr

/-- What one command path holds (R309, R312 to R317): packets received and not yet executed, the reply ready on
I3C, and the tollgate; `lockout` counts the ticks of a lock-out. -/
structure PathSt where
  packets : List (List (BitVec 8))
  badLen : List Bool
  reply : Option (List (BitVec 8))
  session : Option Session
  challenge : Option Challenge
  openFails : Nat
  lockout : Option Nat
deriving DecidableEq, Repr

def PathSt.init : PathSt := ⟨[], [], none, none, none, 0, none⟩

/-- A firmware update in progress (R305). -/
structure Update where
  slot : Nat
  size : Nat
  bytes : Tbl (BitVec 8)
deriving DecidableEq, Repr

/-- The command whose final reply comes later (R324, R355): its header and the session key of its trailer. -/
structure Late where
  opcode : Nat
  seq : Nat
  key : Option Key
deriving DecidableEq, Repr

/-- The I3C target (R318): the dynamic address, IBIs enabled, HDR traffic on the bus. -/
structure I3c where
  dynAddr : Option (BitVec 7)
  ibiOn : Bool
  hdr : Bool
deriving DecidableEq, Repr

/-- Management (R295 to R325). Words carry no fc: they are oldest first. -/
structure Mgt where
  cmdFifo : List Word
  overflow : Bool
  cmdSeen : List Word
  replyFifo : List Word
  owedHost : Nat
  readers : List (Nat × Nat × Nat)
  evtFifo : List (Word × Word)
  evtHi : Word
  telem : Tbl Word
  band : Nat
  bandNext : Nat
  trim : Tbl Int
  trimNext : List (Nat × Int)
  trimCrcOk : Bool
  slotA : Option (List (BitVec 8))
  slotB : Option (List (BitVec 8))
  prefer : Nat
  trial : Bool
  trialBoot : Bool
  running : Nat
  fellBack : Bool
  shoulder : Bool
  shoulderCause : Nat
  update : Option Update
  opKey : Option Key
  ownKey : Option Key
  late : Option Late
  host : PathSt
  i3cp : PathSt
  i3c : I3c
  demand : Nat
  wpHits : Nat
  stHits : Nat
  pkHits : Nat
deriving DecidableEq, Repr

def Mgt.init : Mgt where
  cmdFifo := []
  overflow := false
  cmdSeen := []
  replyFifo := []
  owedHost := 0
  readers := []
  evtFifo := []
  evtHi := 0
  telem := []
  band := 2
  bandNext := 2
  trim := []
  trimNext := []
  trimCrcOk := true
  slotA := Config.slotA
  slotB := Config.slotB
  prefer := 0
  trial := false
  trialBoot := false
  running := 0
  fellBack := false
  shoulder := false
  shoulderCause := 0
  update := none
  opKey := none
  ownKey := none
  late := none
  host := .init
  i3cp := .init
  i3c := ⟨none, true, false⟩
  demand := 0
  wpHits := 0
  stHits := 0
  pkHits := 0

/-! ### Safety -/

/-- Error classes and the two kinds of entry that are no error, coded as R320 codes `cls`. -/
inductive Cls where
  | info | c | p | d | x | alarm
deriving DecidableEq, Repr

/-- A log entry (R328); `saved`: it is in the system segment. -/
structure LogEnt where
  tick : BitVec 64
  fc : Nat
  block : Nat
  code : Nat
  cls : Cls
  noPort : Bool
  port : Nat
  addr : Nat
  detail : BitVec 64
  saved : Bool
deriving DecidableEq, Repr

/-- Safe states with the codes of R338 in this order. -/
inductive Safe where
  | normal | halted | shoulder | stop
deriving DecidableEq, Repr

/-- Safety monitor (R326 to R342). `stepsDone`: the steps of the running tick that complete, `wearOwed`: step 7 of the tick
before did not complete (R296), `drift` what its calibration step finds (R250); `overrunSeen`: the watchdog has
reported the tick that ends. -/
structure Saf where
  safe : Safe
  drainBusy : Bool
  overrunRun : Nat
  marker : Bool
  overrunSeen : Bool
  stepsDone : BitVec 7
  wearOwed : Bool
  drift : Bool
  selfFailed : BitVec 10
  lastSelf : BitVec 10
  lastSelfTick : Word
  voteOff : BitVec 23
  log : List LogEnt
  lost : Nat
  cntC : Nat
  cntP : Nat
  cntD : Nat
  cntX : Nat
  cntAlarm : Nat
deriving DecidableEq, Repr

def Saf.init : Saf where
  safe := .normal
  drainBusy := false
  overrunRun := 0
  marker := true
  overrunSeen := false
  stepsDone := 0
  wearOwed := false
  drift := false
  selfFailed := 0
  lastSelf := 0
  lastSelfTick := 0
  voteOff := 0
  log := []
  lost := 0
  cntC := 0
  cntP := 0
  cntD := 0
  cntX := 0
  cntAlarm := 0

/-! ### Event counters -/

/-- The value of an event counter and its staged low word (R347). -/
structure Cnt where
  value : BitVec 48
  staged : Word
deriving DecidableEq, Repr

def Cnt.init : Cnt := ⟨0, 0⟩

/-! ### Power and reset -/

/-- Where the device stands in R353, R364 to R369. -/
inductive Boot where
  /-- PORST_N is low. -/
  | reset
  /-- Boot step 5 waits for keys (R261). -/
  | keyWait
  /-- Boot stopped after step 2 (STRAP_RECOVER, R368). -/
  | recover
  /-- Boot stopped at training (R237). -/
  | trainStop
  /-- Boot step 7 reached. -/
  | run
  /-- A warm drain runs (R365). -/
  | warmDrain
  /-- Standby entry waits (R355, steps 2 to 9). -/
  | standbyEntry
  /-- STBY_ACK is high. -/
  | standby
  /-- An orderly shutdown has begun (R324). -/
  | shutdown
  /-- The power-loss drain has ended, or the supplies are off. -/
  | off
  /-- The power-loss drain runs (R231). -/
  | powerDrain
deriving DecidableEq, Repr

/-- Pins, power states, governor. `softPending`: a soft reset is on its way or under way (R324); `replyPath`: the path on
which the reply of SHUTDOWN or STANDBY_ENTER is still to be pushed; `offDrain`: the device went off through a power-loss
drain. -/
structure Power where
  boot : Boot
  porstN : Bool
  warmN : Bool
  vmainOk : Bool
  vbakOk : Bool
  onVbak : Bool
  vaonOk : Bool
  refclk : Bool
  stbyAck : Bool
  alertN : Bool
  overTemp : Bool
  straps : Straps
  resetCause : Nat
  wakeCause : Nat
  idle : Bool
  softPending : Bool
  replyPath : Option Path
  replyOut : Option Path
  offDrain : Bool
  cap : Nat
  capNext : Nat
  thermal : Nat
  thermalNext : Nat
  level : Nat
  guard : Bool
  guardTick : Bool
  hotTick : Bool
  allowance : Nat
deriving DecidableEq, Repr

def Power.init : Power where
  boot := .reset
  porstN := false
  warmN := true
  vmainOk := true
  vbakOk := false
  onVbak := false
  vaonOk := true
  refclk := true
  stbyAck := false
  alertN := true
  overTemp := false
  straps := ⟨0, false⟩
  resetCause := 0
  wakeCause := 0
  idle := false
  softPending := false
  replyPath := none
  replyOut := none
  offDrain := false
  cap := 9000
  capNext := 9000
  thermal := 11000
  thermalNext := 11000
  level := 0
  guard := false
  guardTick := false
  hotTick := false
  allowance := 9000

/-! ### What leaves the device -/

/-- The model's own record of what leaves the device. `ack` is the acknowledgment that the flits carry (R44): the `seq`
of the last MSG flit accepted in order, none while `ack_vld` is 0. -/
inductive Out where
  /-- A message leaves on a link. -/
  | msg (l : Nat) (m : Msg) (ack : Option Nat)
  /-- A LINK flit (R40): operation and parameter bytes. -/
  | linkFlit (l : Nat) (op : Nat) (params : List Nat) (ack : Option Nat)
  /-- A MSG flit is resent (R46). -/
  | resend (l : Nat) (seq : Nat) (ack : Option Nat)
  /-- An IDLE flit carries the acknowledgment of a MSG flit just accepted (R44). -/
  | idle (l : Nat) (ack : Option Nat)
  /-- TRAIN flits: TS_DONE or TS_PARAM. -/
  | train (l : Nat) (op : Nat)
  /-- A wake burst or SYNC and FILL on a sleeping link (R68). -/
  | wake (l : Nat)
  /-- A burst pair of a channel, with bank, row and first column (R238): read or write of a line. -/
  | dramRead (ch line bank row col : Nat)
  | dramWrite (ch line bank row col : Nat) (cipher : Line)
  /-- Memory training at a boot: whole, or only the check of saved results (R249). -/
  | training (whole : Bool)
  /-- Per-bank refresh, RFM, precharge of a bank. -/
  | refresh (ch : Nat) (bank : Nat)
  | rfm (ch : Nat) (bank : Nat)
  | precharge (ch : Nat) (bank : Nat)
  /-- Mode register 23 of every die of a channel (R254). -/
  | modeReg23 (ch : Nat) (mask : BitVec 8)
  /-- Pins. -/
  | alertN (level : Bool)
  | stbyAck (level : Bool)
  /-- A control space read returns this word. -/
  | csrRead (off : Nat) (v : Word)
  /-- I3C: bytes driven, an address or byte not acknowledged, an IBI with its payload. -/
  | i3cBytes (bs : List (BitVec 8))
  | i3cNack
  | i3cAck
  | ibi (bs : List (BitVec 8))
  /-- A ring stop reserves the next empty beat (R110). -/
  | ringReserve (stop : Nat)
  /-- A ring stop inserts a message (R109, R110): source, direction, the stops it is for, beats. -/
  | ring (stop source : Nat) (cw : Bool) (dests : List Nat) (beats : Nat)
deriving DecidableEq, Repr

/-- The whole machine. `txHalf`: links whose last MSG flit of this command has slot 1 free (R53); `ring`: the ring stops that
have reserved the next empty beat (R110). -/
structure State where
  pending : List Instr
  tick : BitVec 64
  fc : Nat
  free : Nat
  arrival : Nat
  order : Nat
  out : List Out
  txHalf : List Nat
  ring : List Nat
  csr : Tbl Reg3
  power : Power
  links : Tbl Link
  ports : Tbl Port
  queues : Tbl Queue
  arbs : Tbl Nat
  home : Home
  wp : Waypoint
  sto : Store
  prk : Park
  mem : Mem
  cry : Crypt
  dma : Tbl DmaCh
  mgt : Mgt
  saf : Saf
  cnts : Tbl Cnt
deriving DecidableEq, Repr

/-- The machine right after reset: PORST_N low, every field at its reset value (R16), tables empty. -/
def State.reset : State where
  pending := []
  tick := 0
  fc := 0
  free := 0
  arrival := 1
  order := 1
  out := []
  txHalf := []
  ring := []
  csr := []
  power := .init
  links := []
  ports := []
  queues := []
  arbs := []
  home := .init
  wp := .init
  sto := .init
  prk := .init
  mem := .init
  cry := .init
  dma := []
  mgt := .init
  saf := .init
  cnts := []

end Sys2Proof.Machine
end

