-- ==== Sys2Proof/Machine/Regs.lean ====
section
/-! DEFINITION. The control space map (16_register_map): offsets (R372, R383), which bits are RW, voted and W1C, and
reset values (R12, R16, and the register tables of each chapter). RO and WO bits belong to none of the three masks. -/
namespace Sys2Proof.Machine

/-! ### Offsets (R383) -/

def rGlbId : Nat := 0x0
def rGlbPwrCtrl : Nat := 0x4
def rGlbPwrStatus : Nat := 0x8
def rGlbResetCause : Nat := 0xC
def rGlbStraps : Nat := 0x10
def rGlbGov : Nat := 0x14
def rLnkGctl : Nat := 0x10000
def rPdwBase (n : Nat) : Nat := 0x10100 + 8 * n
def rPdwLimit (n : Nat) : Nat := 0x10104 + 8 * n
def rLnkCtrl (k : Nat) : Nat := 0x11000 + 0x100 * k
def rLnkStatus (k : Nat) : Nat := 0x11004 + 0x100 * k
def rLnkErr (k : Nat) : Nat := 0x11008 + 0x100 * k
def rLnkPwr (k : Nat) : Nat := 0x1100C + 0x100 * k
def rLnkTollA (k : Nat) : Nat := 0x11010 + 0x100 * k
def rLnkTollB (k : Nat) : Nat := 0x11014 + 0x100 * k
def rPrtGctl : Nat := 0x20000
def rPrtPool : Nat := 0x20004
def rPrtLayby : Nat := 0x20008
def rPrtErr : Nat := 0x2000C
def rPrtStrike : Nat := 0x20010
def rPrtBudget (p : Nat) : Nat := 0x21000 + 4 * p
def rHomCtrl : Nat := 0x30000
def rHomStatus : Nat := 0x30004
def rHomErr : Nat := 0x30008
def rHomDead : Nat := 0x3000C
def rHomClaim : Nat := 0x30010
def rHomPoisoned : Nat := 0x30014
def rHomRsv : Nat := 0x30018
def rHomSlotA (s : Nat) : Nat := 0x30100 + 8 * s
def rHomSlotB (s : Nat) : Nat := 0x30104 + 8 * s
def rWpcCtrl : Nat := 0x40000
def rWpcStatus : Nat := 0x40004
def rWpcErr : Nat := 0x40008
def rPfCtrl : Nat := 0x40010
def rPfPool : Nat := 0x40014
def rPfDieCap : Nat := 0x40018
def rPfStatus : Nat := 0x4001C
def rMaintLo : Nat := 0x40020
def rMaintHi : Nat := 0x40024
def rMaintCmd : Nat := 0x40028
def rMaintStatus : Nat := 0x4002C
def rStoCtrl : Nat := 0x50000
def rStoStatus : Nat := 0x50004
def rStoErr : Nat := 0x50008
def rStoCorr : Nat := 0x5000C
def rLsBudget : Nat := 0x50010
def rRsBudget : Nat := 0x50014
def rRetireThresh : Nat := 0x50018
def rStoSel : Nat := 0x5001C
def rStoSelVal : Nat := 0x50020
def rTestCtrl : Nat := 0x50024
def rTestFlipA : Nat := 0x50028
def rTestFlipB : Nat := 0x5002C
def rTestResult : Nat := 0x50030
def rPrkCtrl : Nat := 0x60000
def rPrkStatus : Nat := 0x60004
def rPrkErr : Nat := 0x60008
def rPrkSel : Nat := 0x6000C
def rPrkMapLo : Nat := 0x60010
def rPrkMapHi : Nat := 0x60014
def rVacBase : Nat := 0x60018
def rVacCmd : Nat := 0x6001C
def rPrkRelease : Nat := 0x60020
def rPrkPasr : Nat := 0x60024
def rMemCtrl : Nat := 0x70000
def rMemStatus : Nat := 0x70004
def rMemErr : Nat := 0x70008
def rMemPwr : Nat := 0x7000C
def rMemEccCnt : Nat := 0x70010
def rPoisonStatus : Nat := 0x70014
def rPoisonSel : Nat := 0x70018
def rPoisonEntry : Nat := 0x7001C
def rMemCh (c : Nat) : Nat := 0x70100 + 4 * c
def rCryCtrl : Nat := 0x80000
def rCryStatus : Nat := 0x80004
def rCryErr : Nat := 0x80008
def rCryAlarm : Nat := 0x8000C
def rAlarmPort : Nat := 0x80010
def rAlarmAddrLo : Nat := 0x80014
def rAlarmAddrHi : Nat := 0x80018
def rKcvLo : Nat := 0x8001C
def rKcvHi : Nat := 0x80020
def rWinBase (n : Nat) : Nat := 0x80100 + 16 * n
def rWinLimit (n : Nat) : Nat := 0x80104 + 16 * n
def rWinTbase (n : Nat) : Nat := 0x80108 + 16 * n
def rAdRdLo (d : Nat) : Nat := 0x80800 + 16 * d
def rAdRdHi (d : Nat) : Nat := 0x80804 + 16 * d
def rAdWrLo (d : Nat) : Nat := 0x80808 + 16 * d
def rAdWrHi (d : Nat) : Nat := 0x8080C + 16 * d
def rPortAd (m : Nat) : Nat := 0x80C00 + 4 * m
def rDmaErr : Nat := 0x90000
def rDmaTokens : Nat := 0x90004
def rDmaActiveLo : Nat := 0x90008
def rDmaActiveHi : Nat := 0x9000C
def rDmaCtrl (n : Nat) : Nat := 0x91000 + 0x40 * n
def rDmaStatus (n : Nat) : Nat := 0x91004 + 0x40 * n
def rDmaListLo (n : Nat) : Nat := 0x91008 + 0x40 * n
def rDmaListHi (n : Nat) : Nat := 0x9100C + 0x40 * n
def rDmaShadowLo (n : Nat) : Nat := 0x91010 + 0x40 * n
def rDmaShadowHi (n : Nat) : Nat := 0x91014 + 0x40 * n
def rDmaDescLo (n : Nat) : Nat := 0x91018 + 0x40 * n
def rDmaDescHi (n : Nat) : Nat := 0x9101C + 0x40 * n
def rDmaResume (n : Nat) : Nat := 0x91020 + 0x40 * n
def rDmaDone (n : Nat) : Nat := 0x91024 + 0x40 * n
def rCmdFifo : Nat := 0xA0000
def rCmdStatus : Nat := 0xA0004
def rCmdCtrl : Nat := 0xA0008
def rReplyFifo : Nat := 0xA000C
def rReplyStatus : Nat := 0xA0010
def rEvtLo : Nat := 0xA0014
def rEvtHi : Nat := 0xA0018
def rEvtStatus : Nat := 0xA001C
def rEvtCtrl : Nat := 0xA0020
def rIntrPend : Nat := 0xA0024
def rIntrMask : Nat := 0xA0028
def rIntrDmaLo : Nat := 0xA002C
def rIntrDmaHi : Nat := 0xA0030
def rTickLo : Nat := 0xA0034
def rTickHi : Nat := 0xA0038
def rFwStatus : Nat := 0xA003C
def rTelemSel : Nat := 0xA0040
def rTelemVal : Nat := 0xA0044
def rIntrRoute : Nat := 0xA0048
def rSafStatus : Nat := 0xB0000
def rSafErr : Nat := 0xB0004
def rSafSelf : Nat := 0xB0008
def rSafVote : Nat := 0xB000C
def rSafLog : Nat := 0xB0010
def rSafCntC : Nat := 0xB0014
def rSafCntP : Nat := 0xB0018
def rSafCntD : Nat := 0xB001C
def rSafCntX : Nat := 0xB0020
def rSafCntAlarm : Nat := 0xB0024
def rCntGctl : Nat := 0xC0000
def rCntOvfLo : Nat := 0xC0004
def rCntOvfHi : Nat := 0xC0008
def rCntCfg (n : Nat) : Nat := 0xC1000 + 0x20 * n
def rCntPort (n : Nat) : Nat := 0xC1004 + 0x20 * n
def rCntAddrLo (n : Nat) : Nat := 0xC1008 + 0x20 * n
def rCntAddrHi (n : Nat) : Nat := 0xC100C + 0x20 * n
def rCntValLo (n : Nat) : Nat := 0xC1010 + 0x20 * n
def rCntValHi (n : Nat) : Nat := 0xC1014 + 0x20 * n
def rPage (p : Nat) : Nat := 0x400000 + 0x1000 * p

/-! ### Layouts -/

/-- Which bits of a register hold what: plain RW bits, voted RWV fields as (low bit, width), W1C bits, reset value. -/
structure Layout where
  rw : Word
  voted : List (Nat × Nat)
  w1c : Word
  reset : Word
deriving DecidableEq, Repr

/-- A register with no writable and no sticky bit, and an offset that no register occupies (R374). -/
def Layout.ro : Layout := ⟨0, [], 0, 0⟩

/-- The bits of one field in place. -/
def fieldMask (lo width : Nat) : Word := BitVec.ofNat 32 ((2 ^ width - 1) * 2 ^ lo)

/-- All voted bits of a layout. -/
def Layout.votedMask (y : Layout) : Word :=
  y.voted.foldl (fun m f => m ||| fieldMask f.1 f.2) 0

def layoutGlb (o : Nat) : Layout :=
  if o = 0x4 then ⟨0xfff, [], 0, 0xcb⟩ else .ro

def layoutLnk (o : Nat) : Layout :=
  if o = 0 then ⟨0xff, [], 0, 0x7⟩
  else if 0x100 ≤ o ∧ o < 0x200 then
    if o % 8 = 0 then ⟨0x80ffffff, [], 0, 0⟩ else if o % 8 = 4 then ⟨0xfffff, [], 0, 0⟩ else .ro
  else if 0x1000 ≤ o ∧ o < 0x2000 then
    if o % 0x100 = 0 then ⟨0x9d, [(1, 1)], 0, 0x9⟩
    else if o % 0x100 = 8 then ⟨0, [], 0x7ff, 0⟩
    else if o % 0x100 = 0xC then ⟨0xffffffff, [], 0, 0x640018⟩
    else .ro
  else .ro

def layoutPrt (o : Nat) : Layout :=
  if o = 0 then ⟨0x3ffff, [], 0, 0x6004⟩
  else if o = 0xC then ⟨0, [], 0xf, 0⟩
  else if 0x1000 ≤ o ∧ o < 0x2000 ∧ o % 4 = 0 then ⟨0x7f7f07ff, [], 0, 0x10400040⟩
  else .ro

def layoutHom (o : Nat) : Layout :=
  if o = 0 then ⟨0x400, [(0, 10)], 0, 0x440⟩
  else if o = 8 then ⟨0, [], 0x7f, 0⟩
  else if o = 0x18 then ⟨0x7, [], 0, 0⟩
  else .ro

def layoutWpc (o : Nat) : Layout :=
  if o = 0 then ⟨0x2000, [(0, 13)], 0, 0x3000⟩
  else if o = 8 then ⟨0, [], 0x3f, 0⟩
  else if o = 0x10 then ⟨0xffff, [], 0, 0x829⟩
  else if o = 0x14 then ⟨0xfffff, [], 0, 0x20000⟩
  else if o = 0x18 then ⟨0x1ffff, [], 0, 0x7a12⟩
  else if o = 0x20 then ⟨0xffffff80, [], 0, 0⟩
  else if o = 0x24 then ⟨0xff, [], 0, 0⟩
  else if o = 0x28 then ⟨0xfffff, [], 0, 0⟩
  else .ro

def layoutSto (o : Nat) : Layout :=
  if o = 0 then ⟨0x30, [(0, 4)], 0, 0x34⟩
  else if o = 8 then ⟨0, [], 0x7ff, 0⟩
  else if o = 0x10 ∨ o = 0x14 then ⟨0xffffffff, [], 0, 0xb71a7a12⟩
  else if o = 0x18 then ⟨0, [(0, 32)], 0, 0x59682f00⟩
  else if o = 0x1C then ⟨0xffff, [], 0, 0⟩
  else if o = 0x24 then ⟨0x3ff, [], 0, 0⟩
  else if o = 0x28 then ⟨0xffffff, [], 0, 0⟩
  else if o = 0x2C then ⟨0xfff, [], 0, 0⟩
  else .ro

def layoutPrk (o : Nat) : Layout :=
  if o = 0 then ⟨0, [(0, 4)], 0, 0⟩
  else if o = 8 then ⟨0, [], 0x7f, 0⟩
  else if o = 0xC then ⟨0x3ff, [], 0, 0⟩
  else if o = 0x18 then ⟨0xffff, [], 0, 0⟩
  else if o = 0x1C then ⟨0x3ffff, [], 0, 0⟩
  else if o = 0x20 then ⟨0x3ff, [], 0, 0⟩
  else .ro

def layoutMem (o : Nat) : Layout :=
  if o = 0 then ⟨0x7ff7, [(3, 1)], 0, 0x303f⟩
  else if o = 8 then ⟨0, [], 0xff, 0⟩
  else if o = 0xC then ⟨0xffffffff, [], 0, 0x1f40010⟩
  else if o = 0x18 then ⟨0x3ff, [], 0, 0⟩
  else .ro

def layoutCry (o : Nat) : Layout :=
  if o = 0 then ⟨0, [(0, 16)], 0, 0x1⟩
  else if o = 8 then ⟨0, [], 0x7, 0⟩
  else if o = 0xC then ⟨0, [], 0xf, 0⟩
  else if 0x100 ≤ o ∧ o < 0x500 then
    if o % 16 = 0 then ⟨0, [(0, 24), (24, 4), (28, 1), (31, 1)], 0, if o = 0x100 then 0x80000000 else 0⟩
    else if o % 16 = 4 then ⟨0, [(0, 24)], 0, if o = 0x104 then 0xffffff else 0⟩
    else if o % 16 = 8 then ⟨0, [(0, 24)], 0, 0⟩
    else .ro
  else if 0x800 ≤ o ∧ o < 0x900 ∧ o % 4 = 0 then
    ⟨0, [(0, 32)], 0, if o = 0x800 ∨ o = 0x808 then 1 else 0⟩
  else if 0xC00 ≤ o ∧ o < 0xE00 ∧ o % 4 = 0 then
    ⟨0, [(0, 4), (4, 4), (8, 4), (12, 4), (16, 4), (20, 4), (24, 4), (28, 4)], 0, 0⟩
  else .ro

def layoutDma (o : Nat) : Layout :=
  if o = 0 then ⟨0, [], 0x7, 0⟩
  else if 0x1000 ≤ o ∧ o < 0x2000 then
    if o % 0x40 = 0 then ⟨0x3c3, [(2, 4)], 0, 0x3c0⟩
    else if o % 0x40 = 8 then ⟨0xffffffe0, [], 0, 0⟩
    else if o % 0x40 = 0xC then ⟨0xff, [], 0, 0⟩
    else if o % 0x40 = 0x10 then ⟨0xffffffe0, [], 0, 0⟩
    else if o % 0x40 = 0x14 then ⟨0xfff, [], 0, 0⟩
    else .ro
  else .ro

def layoutMgt (o : Nat) : Layout :=
  if o = 0x10 then ⟨0, [], 0x200, 0⟩
  else if o = 0x1C then ⟨0, [], 0x200, 0⟩
  else if o = 0x20 then ⟨0x1ff, [], 0, 0xc0⟩
  else if o = 0x24 then ⟨0, [], 0x3fb, 0⟩
  else if o = 0x28 then ⟨0x3fffffff, [], 0, 0x7c000⟩
  else if o = 0x2C ∨ o = 0x30 then ⟨0, [], 0xffffffff, 0⟩
  else if o = 0x40 then ⟨0x1f, [], 0, 0⟩
  else if o = 0x48 then ⟨0x7ff, [], 0, 0⟩
  else .ro

def layoutSaf (o : Nat) : Layout :=
  if o = 4 then ⟨0, [], 0x7f, 0⟩ else .ro

def layoutCnt (o : Nat) : Layout :=
  if o = 0 then ⟨1, [], 0, 0⟩
  else if o = 4 ∨ o = 8 then ⟨0, [], 0xffffffff, 0⟩
  else if 0x1000 ≤ o ∧ o < 0x1800 then
    if o % 0x20 = 0 then ⟨0x7fffff, [], 0, 0x3ffc00⟩
    else if o % 0x20 = 4 then ⟨0x3ff03ff, [], 0, 0⟩
    else if o % 0x20 = 8 ∨ o % 0x20 = 0xC then ⟨0xfffffff, [], 0, 0⟩
    else .ro
  else .ro

/-- The layout of the register at a control space offset (R372). CNT_VAL is held with the counter (R347). -/
def layout (o : Nat) : Layout :=
  let b := o / 0x10000
  let r := o % 0x10000
  if b = 0 then layoutGlb r
  else if b = 1 then layoutLnk r
  else if b = 2 then layoutPrt r
  else if b = 3 then layoutHom r
  else if b = 4 then layoutWpc r
  else if b = 5 then layoutSto r
  else if b = 6 then layoutPrk r
  else if b = 7 then layoutMem r
  else if b = 8 then layoutCry r
  else if b = 9 then layoutDma r
  else if b = 10 then layoutMgt r
  else if b = 11 then layoutSaf r
  else if b = 12 then layoutCnt r
  else .ro

/-- What an unlisted register holds: its reset value in all three copies (R16, R12). -/
def csrInit (o : Nat) : Reg3 := ⟨(layout o).reset, (layout o).reset, (layout o).reset⟩

/-- One field of a word. -/
def field (w : Word) (lo width : Nat) : Nat := w.toNat / 2 ^ lo % 2 ^ width

/-- The majority of three copies of a field, none when all three differ (R14). -/
def majority (a b c : Nat) : Option Nat :=
  if a = b then some a else if a = c then some a else if b = c then some b else none

/-- The voted value of one field of a stored word (R335). -/
def voteField (r : Reg3) (lo width : Nat) : Option Nat :=
  majority (field r.a lo width) (field r.b lo width) (field r.c lo width)

/-- Every voted field of the word at an offset has a majority. -/
def votesHold (o : Nat) (r : Reg3) : Bool :=
  (layout o).voted.all (fun f => (voteField r f.1 f.2).isSome)

/-- The word with each voted field at its majority and the other bits of copy a. -/
def votedWord (o : Nat) (r : Reg3) : Word :=
  (layout o).voted.foldl
    (fun w f => match voteField r f.1 f.2 with
      | some v => (w &&& ~~~ (fieldMask f.1 f.2)) ||| BitVec.ofNat 32 (v * 2 ^ f.1)
      | none => w) r.a

/-- What a write of `v` leaves in a register with layout `y` that holds `w` (R12, R13, R15): RW and RWV fields take
the written bits, a 1 written to a W1C bit clears it, every other bit stays. -/
def writeBits (y : Layout) (w v : Word) : Word :=
  let m := y.rw ||| y.votedMask
  ((w &&& ~~~ m) ||| (v &&& m)) &&& ~~~ (v &&& y.w1c)

end Sys2Proof.Machine
end

