-- ==== Sys2Proof/Machine/Ops.lean ====
section
/-! DEFINITION. The named operations every meaning is written over: tables, field access, registers, the error log,
event FIFO and interrupts (R320 to R330), event counting (R343 to R348), and sending on a link (R48 to R55). -/
namespace Sys2Proof.Machine

/-! ### Tables -/

/-- The value a table holds for a key; an unlisted key reads as `d` of it. -/
def tget {α : Type} (d : Nat → α) : Tbl α → Nat → α
  | [], k => d k
  | (j, v) :: r, k => if j = k then v else tget d r k

/-- Insert before the first larger key, replacing an equal one. -/
def tput {α : Type} (k : Nat) (v : α) : Tbl α → Tbl α
  | [] => [(k, v)]
  | (j, w) :: r => if k < j then (k, v) :: (j, w) :: r else if k = j then (k, v) :: r else (j, w) :: tput k v r

/-- Drop the entry of a key. -/
def tdel {α : Type} (k : Nat) : Tbl α → Tbl α
  | [] => []
  | (j, w) :: r => if j = k then r else (j, w) :: tdel k r

/-- Write a key, keeping the canonical form: writing what an unlisted key reads as removes the entry. -/
def tset {α : Type} [DecidableEq α] (d : Nat → α) (t : Tbl α) (k : Nat) (v : α) : Tbl α :=
  if v = d k then tdel k t else tput k v t

/-- Keys strictly rising. -/
def trising {α : Type} : Tbl α → Bool
  | [] => true
  | [_] => true
  | (j, _) :: (k, w) :: r => decide (j < k) && trising ((k, w) :: r)

/-- The canonical form of a table. -/
def twf {α : Type} [DecidableEq α] (d : Nat → α) (t : Tbl α) : Bool :=
  trising t && t.all (fun e => decide (e.2 ≠ d e.1))

/-! ### Codes -/

def LinkState.code : LinkState → Nat
  | .disabled => 0 | .detect => 1 | .sync => 2 | .param => 3 | .eq => 4 | .active => 5 | .sleepLight => 6
  | .sleepDeep => 7 | .retrain => 8 | .absent => 9 | .detached => 10 | .quarantine => 11 | .dead => 12

def HState.code : HState → Nat
  | .hi => 0 | .hc => 1 | .hd => 2 | .hlc => 3 | .hld => 4 | .hp => 5

/-- Codes 6 and 7 are reserved (R187). -/
def HState.ofCode : Nat → Option HState
  | 0 => some .hi | 1 => some .hc | 2 => some .hd | 3 => some .hlc | 4 => some .hld | 5 => some .hp | _ => none

def HState.lent : HState → Bool
  | .hlc => true | .hld => true | _ => false

/-- The pre-lending state (R107, R181). -/
def HState.unlent : HState → HState
  | .hlc => .hc | .hld => .hd | s => s

/-- The lent state of a line granted E or M (R115). -/
def HState.lend : HState → HState
  | .hd => .hld | .hld => .hld | _ => .hlc

def PState.code : PState → Nat
  | .free => 0 | .parking => 1 | .parked => 2 | .unparking => 3 | .lost => 4 | .closed => 5 | .moving => 6

def Cls.code : Cls → Nat
  | .info => 0 | .c => 1 | .p => 2 | .d => 3 | .x => 4 | .alarm => 5

def Safe.code : Safe → Nat
  | .normal => 0 | .halted => 1 | .shoulder => 2 | .stop => 3

def ChState.code : ChState → Nat
  | .active => 0 | .powerDown => 1 | .selfRefresh => 2 | .pasr => 3 | .deepSleep => 4 | .off => 0

def ChanState.code : ChanState → Nat
  | .idle => 0 | .run => 1 | .stopping => 2 | .stopped => 3 | .error => 4

/-! ### Field access -/

def linkDef (_ : Nat) : Link := .init
def portDef (_ : Nat) : Port := .init
def queueDef (_ : Nat) : Queue := .init
def noneDef {α : Type} (_ : Nat) : Option α := none
def zeroDef (_ : Nat) : Nat := 0
def wayDef (_ : Nat) : Way := .init
def dieDef (_ : Nat) : Die := .init
def laneDef (_ : Nat) : Lane := .init
def lifeDef (_ : Nat) : Life := ⟨0, 0⟩
def pslotDef (_ : Nat) : PSlot := .init
def chanDef (_ : Nat) : Chan := .init
def dmaDef (_ : Nat) : DmaCh := .init
def cntDef (_ : Nat) : Cnt := .init
def frameDef (_ : Nat) : FrameImg := 0
def wordDef (_ : Nat) : Word := 0
def byteDef (_ : Nat) : BitVec 8 := 0
def intDef (_ : Nat) : Int := 0
def listDef {α : Type} (_ : Nat) : List α := []

def State.link (s : State) (l : Nat) : Link := tget linkDef s.links l
def State.setLink (s : State) (l : Nat) (v : Link) : State := { s with links := tset linkDef s.links l v }
def State.port (s : State) (p : Nat) : Port := tget portDef s.ports p
def State.setPort (s : State) (p : Nat) (v : Port) : State := { s with ports := tset portDef s.ports p v }
def State.queue (s : State) (q : Nat) : Queue := tget queueDef s.queues q
def State.setQueue (s : State) (q : Nat) (v : Queue) : State := { s with queues := tset queueDef s.queues q v }
def State.slot (s : State) (k : Nat) : Option Slot := tget noneDef s.home.slots k
def State.setSlot (s : State) (k : Nat) (v : Option Slot) : State :=
  { s with home := { s.home with slots := tset noneDef s.home.slots k v } }
def State.fent (s : State) (k : Nat) : Option FEnt := tget noneDef s.home.filter k
def State.setFent (s : State) (k : Nat) (v : Option FEnt) : State :=
  { s with home := { s.home with filter := tset noneDef s.home.filter k v } }
def State.chain (s : State) (line : Nat) : List Nat := tget listDef s.home.chains line
def State.setChain (s : State) (line : Nat) (v : List Nat) : State :=
  { s with home := { s.home with chains := tset listDef s.home.chains line v } }
def State.way (s : State) (k : Nat) : Way := tget wayDef s.wp.ways k
def State.setWay (s : State) (k : Nat) (v : Way) : State :=
  { s with wp := { s.wp with ways := tset wayDef s.wp.ways k v } }
def State.die (s : State) (d : Nat) : Die := tget dieDef s.sto.dies d
def State.setDie (s : State) (d : Nat) (v : Die) : State :=
  { s with sto := { s.sto with dies := tset dieDef s.sto.dies d v } }
def State.pslot (s : State) (k : Nat) : PSlot := tget pslotDef s.prk.slots k
def State.setPslot (s : State) (k : Nat) (v : PSlot) : State :=
  { s with prk := { s.prk with slots := tset pslotDef s.prk.slots k v } }
def State.chan (s : State) (c : Nat) : Chan := tget chanDef s.mem.chans c
def State.setChan (s : State) (c : Nat) (v : Chan) : State :=
  { s with mem := { s.mem with chans := tset chanDef s.mem.chans c v } }
def State.dch (s : State) (n : Nat) : DmaCh := tget dmaDef s.dma n
def State.setDch (s : State) (n : Nat) (v : DmaCh) : State := { s with dma := tset dmaDef s.dma n v }
def State.cnt (s : State) (n : Nat) : Cnt := tget cntDef s.cnts n
def State.setCnt (s : State) (n : Nat) (v : Cnt) : State := { s with cnts := tset cntDef s.cnts n v }
def State.arb (s : State) (a : Nat) : Nat := tget zeroDef s.arbs a
def State.setArb (s : State) (a : Nat) (v : Nat) : State := { s with arbs := tset zeroDef s.arbs a v }
def State.reg3 (s : State) (o : Nat) : Reg3 := tget csrInit s.csr o
def State.setReg3 (s : State) (o : Nat) (v : Reg3) : State := { s with csr := tset csrInit s.csr o v }
def State.emit (s : State) (o : Out) : State := { s with out := s.out ++ [o] }
def State.setPower (s : State) (p : Power) : State := { s with power := p }
def State.setMgt (s : State) (m : Mgt) : State := { s with mgt := m }
def State.setSaf (s : State) (f : Saf) : State := { s with saf := f }
def State.setPrk (s : State) (p : Park) : State := { s with prk := p }
def State.setSto (s : State) (t : Store) : State := { s with sto := t }
def State.setCry (s : State) (c : Crypt) : State := { s with cry := c }
def State.setMem (s : State) (m : Mem) : State := { s with mem := m }
def State.setWp (s : State) (w : Waypoint) : State := { s with wp := w }
def State.setHome (s : State) (h : Home) : State := { s with home := h }

/-- The canonical form of a table, whatever the order its entries stand in. -/
def tnorm {α : Type} [DecidableEq α] (d : Nat → α) (t : Tbl α) : Tbl α :=
  t.foldr (fun e r => tset d r e.1 e.2) []

/-- Every table of the state in canonical form, so that equal machines are equal data. -/
def State.norm (s : State) : State :=
  { s with
    txHalf := []
    csr := tnorm csrInit s.csr
    links := tnorm linkDef s.links
    ports := tnorm portDef s.ports
    queues := tnorm queueDef s.queues
    arbs := tnorm zeroDef s.arbs
    home := { s.home with
      slots := tnorm noneDef s.home.slots
      filter := tnorm noneDef s.home.filter
      chains := tnorm listDef s.home.chains }
    wp := { s.wp with ways := tnorm wayDef s.wp.ways, diePf := tnorm zeroDef s.wp.diePf }
    sto := { s.sto with frames := tnorm frameDef s.sto.frames, dies := tnorm dieDef s.sto.dies }
    prk := { s.prk with
      slots := tnorm pslotDef s.prk.slots
      saved := tnorm csrInit s.prk.saved
      poisonSaved := tnorm noneDef s.prk.poisonSaved }
    mem := { s.mem with
      chans := tnorm chanDef s.mem.chans
      poison := tnorm noneDef s.mem.poison
      array := tnorm noneDef s.mem.array
      losses := tnorm zeroDef s.mem.losses }
    cry := { s.cry with keys := tnorm noneDef s.cry.keys, tagbuf := tnorm listDef s.cry.tagbuf }
    dma := tnorm dmaDef s.dma
    mgt := { s.mgt with telem := tnorm wordDef s.mgt.telem, trim := tnorm intDef s.mgt.trim }
    cnts := tnorm cntDef s.cnts }

/-- The outcome of every meaning. -/
abbrev Res := Host.Outcome State Fault Refusal

/-- The outcome of every meaning: the event leaves a next state, its tables in canonical form. -/
def State.done (s : State) : Res := .next s.norm

/-- A fresh free value (assumption log entry 7). -/
def State.fresh (s : State) : Nat × State := (Config.freeNat s.free, { s with free := s.free + 1 })

/-! ### Registers -/

/-- The word software and hardware use: voted fields at their majority (R335). -/
def State.reg (s : State) (o : Nat) : Word := votedWord o (s.reg3 o)

/-- One field of a register. -/
def State.fld (s : State) (o lo width : Nat) : Nat := field (s.reg o) lo width

/-- One bit of a register. -/
def State.bit (s : State) (o n : Nat) : Bool := s.fld o n 1 == 1

/-- Store a whole word in all three copies. -/
def State.putReg (s : State) (o : Nat) (w : Word) : State := s.setReg3 o ⟨w, w, w⟩

/-- A control space write to the stored bits of a register (R12). -/
def State.writeReg (s : State) (o : Nat) (v : Word) : State :=
  s.putReg o (writeBits (layout o) (s.reg3 o).a v)

/-- Set one sticky bit by hardware. -/
def State.setBit (s : State) (o n : Nat) : State :=
  let r := s.reg3 o
  let m := fieldMask n 1
  s.setReg3 o ⟨r.a ||| m, r.b ||| m, r.c ||| m⟩

/-- Set or clear one bit by hardware. -/
def State.putBit (s : State) (o n : Nat) (b : Bool) : State :=
  let r := s.reg3 o
  let m := fieldMask n 1
  if b then s.setBit o n else s.setReg3 o ⟨r.a &&& ~~~ m, r.b &&& ~~~ m, r.c &&& ~~~ m⟩

/-- Clamp a field whose out-of-range values act as the nearest bound. -/
def clamp (lo hi v : Nat) : Nat := if v < lo then lo else if v > hi then hi else v

/-- Link, port and global settings with the rules their tables state. -/
def State.poolMax (s : State) (p : Nat) : Nat := clamp 1 1024 (s.fld (rPrtBudget p) 0 11)
def State.laybyMax (s : State) (p : Nat) : Nat := clamp 1 64 (s.fld (rPrtBudget p) 16 7)
def State.slotMax (s : State) (p : Nat) : Nat := clamp 1 64 (s.fld (rPrtBudget p) 24 7)
def State.excessSlots (s : State) : Nat := clamp 1 480 (s.fld rPrtGctl 8 10)
def State.dirtyQuota (s : State) : Nat := clamp 1 4096 (s.fld rWpcCtrl 0 13)
def State.segFaultMax (s : State) : Nat := clamp 1 15 (s.fld rStoCtrl 0 4)
def State.retireThresh (s : State) : Nat := clamp 0 0xfffffffe (s.fld rRetireThresh 0 32)
def State.evtThreshold (s : State) : Nat := clamp 1 256 (s.fld rEvtCtrl 0 9)
def State.rsvGranule (s : State) : Nat := 128 * 2 ^ (clamp 0 5 (s.fld rHomRsv 0 3))
def State.pfDepth (s : State) : Nat := clamp 1 7 (s.fld rPfCtrl 1 3)
def State.pfConf (s : State) : Nat := clamp 1 3 (s.fld rPfCtrl 4 2)

/-! ### Event counters (14_event_counters) -/

/-- The attributes an occurrence carries (R344): port with privilege and class, address, link. -/
structure Attr where
  req : Option (Nat × Nat × Nat) := none
  addr : Option Nat := none
  link : Option Nat := none
deriving DecidableEq, Repr

/-- Event codes whose Attr column has P (R344). -/
def codesP : List Nat :=
  [0x08, 0x09, 0x0A, 0x0B, 0x0C, 0x0D, 0x0E, 0x0F, 0x10, 0x11, 0x12, 0x13, 0x16, 0x1A, 0x1B, 0x1C, 0x1D, 0x1E, 0x1F, 0x20,
    0x21, 0x22, 0x27, 0x28, 0x2A, 0x2E, 0x2F, 0x30, 0x37, 0x38, 0x3B]

/-- Event codes whose Attr column has A (R344). -/
def codesA : List Nat :=
  [0x08, 0x0B, 0x0C, 0x0D, 0x0E, 0x0F, 0x10, 0x11, 0x12, 0x14, 0x15, 0x16, 0x17, 0x18, 0x19, 0x1A, 0x1B, 0x1C, 0x1D, 0x1E,
    0x21, 0x22, 0x23, 0x24, 0x25, 0x26, 0x27, 0x28, 0x29, 0x2A, 0x2B, 0x2E, 0x31, 0x32, 0x33, 0x35, 0x36, 0x37, 0x38, 0x39,
    0x3B]

/-- Event codes whose Attr column has L (R344). -/
def codesL : List Nat := [0x02, 0x03, 0x04, 0x05, 0x06, 0x07]

/-- What an occurrence of a code carries, by the Attr column (R344). -/
def Attr.keep (a : Attr) (code : Nat) : Attr where
  req := if codesP.contains code then a.req else none
  addr := if codesA.contains code then a.addr else none
  link := if codesL.contains code then a.link else none

/-- An occurrence passes the four filters of counter `n` (R345). -/
def cntPasses (s : State) (n : Nat) (a : Attr) : Bool :=
  let cfg := rCntCfg n
  let pm := s.fld cfg 10 4
  let tm := s.fld cfg 14 8
  let pv := s.fld (rCntPort n) 0 10
  let pmask := s.fld (rCntPort n) 16 10
  (pm == 0xf || match a.req with | some (_, pr, _) => pm.testBit pr | none => false)
  && (pmask == 0 ||
      match a.req, a.link with
      | some (p, _, _), _ => Nat.land (Nat.xor p pv) pmask == 0
      | none, some l => Nat.land (Nat.xor (l * 64) pv) pmask == 0
      | none, none => false)
  && (tm == 0xff || match a.req with | some (_, _, tc) => tm.testBit tc | none => false)
  && (s.fld cfg 22 1 == 0 ||
      match a.addr with
      | some x => decide (s.fld (rCntAddrLo n) 0 28 ≤ x / 4096) && decide (x / 4096 ≤ s.fld (rCntAddrHi n) 0 28)
      | none => false)

/-- Counters whose configuration or value is listed. -/
def cntListed (s : State) : List Nat :=
  (List.range 64).filter (fun n => s.fld (rCntCfg n) 7 1 == 1)

/-! ### Error log, event FIFO and interrupts -/

/-- The pending sources of R322 as bits; bit 2 is the OR of the channels' bits (R323). -/
def State.pendBits (s : State) : Nat :=
  Nat.lor (s.fld rIntrPend 0 10) (if s.fld rIntrDmaLo 0 32 == 0 && s.fld rIntrDmaHi 0 32 == 0 then 0 else 4)

/-- The place of a trim item (R301, R310). -/
def trimKey (item index : Nat) : Nat := item * 256 + index

/-- The user trim of an item that is in use (R301). -/
def State.trimOf (s : State) (item index : Nat) : Int := tget intDef s.mgt.trim (trimKey item index)

/-- The target may raise an IBI: enabled, with a dynamic address, outside HDR traffic (R318, R319). -/
def I3c.canIbi (c : I3c) : Bool := c.ibiOn && c.dynAddr.isSome && !c.hdr

/-- The IBI of an interrupt routed to I3C: 0x02 and the lowest pending source bit (R319). -/
def State.intrIbi (s : State) : Out :=
  .ibi [0x02, BitVec.ofNat 8 (((List.range 10).find? (fun n => s.pendBits.testBit n)).getD 0)]

/-- ALERT_N is low while any pending bit with its alert mask set is 1 (R322), or after an over-temperature stop
(R391). -/
def alertLow (s : State) : Bool :=
  s.power.overTemp || Nat.land s.pendBits (s.fld rIntrMask 10 10) != 0

/-- Drive ALERT_N to its level. -/
def State.driveAlert (s : State) : State :=
  let lvl := !(alertLow s)
  if s.power.alertN == lvl then s
  else { s with power := { s.power with alertN := lvl } }.emit (.alertN lvl)

/-! ### Sending on a link -/

/-- The class code of a message (R55). -/
def Msg.cls (m : Msg) : Nat := (m.hdr.extractLsb' 0 3).toNat
def Msg.opcode (m : Msg) : Nat := (m.hdr.extractLsb' 3 6).toNat
/-- One header slot and its data slots (R53). -/
def Msg.slots (m : Msg) : Nat := 1 + m.data.length

def Tolls.get (t : Tolls) (c : Nat) : Nat :=
  if c = 0 then t.req else if c = 1 then t.snp else if c = 2 then t.rsp else if c = 3 then t.dat else t.ctl

def Tolls.upd (t : Tolls) (c : Nat) (f : Nat → Nat) : Tolls :=
  if c = 0 then { t with req := f t.req } else if c = 1 then { t with snp := f t.snp }
  else if c = 2 then { t with rsp := f t.rsp } else if c = 3 then { t with dat := f t.dat }
  else { t with ctl := f t.ctl }

/-- Pack a message into MSG flits, header in slot 0 of the first (R53; log entry 9). -/
def packSlots : Nat → List (BitVec 2 × MsgSlot) → List TxFlit
  | _, [] => []
  | q, [(k, a)] => [⟨q % 1024, k, 0, a, 0⟩]
  | q, (k, a) :: (j, b) :: r => ⟨q % 1024, k, j, a, b⟩ :: packSlots (q + 1) r

/-- The slots of a message with their kinds (R40). -/
def Msg.kinds (m : Msg) : List (BitVec 2 × MsgSlot) := (1, m.hdr) :: m.data.map (fun d => (2, d))

def Msg.flits (m : Msg) (seq : Nat) : List TxFlit := packSlots seq m.kinds

/-- Put a message behind a flit whose slot 1 is free: its header takes that slot (R53). -/
def joinHalf (seq : Nat) (ks : List (BitVec 2 × MsgSlot)) : List TxFlit → List TxFlit
  | [] => packSlots seq ks
  | [f] =>
    match ks with
    | [] => [f]
    | (k, a) :: r => { f with kind1 := k, slot1 := a } :: packSlots seq r
  | f :: g :: r => f :: joinHalf seq ks (g :: r)

/-- The boot has ended and the supplies are there: the device works. -/
def Boot.live : Boot → Bool
  | .run => true | .warmDrain => true | .standbyEntry => true | .shutdown => true | _ => false

/-- The device's own work runs: after boot, and not in the stop state (R341). -/
def State.live (s : State) : Bool := s.power.boot.live && s.saf.safe != .stop

/-- A wake cause brings the device back from Idle (R354). -/
def State.wake (s : State) : State :=
  if s.power.idle then
    { s with
      power := { s.power with idle := false }
      sto := { s.sto with dies := s.sto.dies.map (fun e => (e.1, { e.2 with asleep := false })) } }
  else s

/-- The control space is served: traffic is admitted, and the device has not stopped (R377). -/
def State.ctlOn (s : State) : Bool := s.power.boot == .run && s.saf.safe != .stop

/-- A write or read command reaches its register: the control space is served, and an access wakes the device (R354,
R377). -/
def State.ctl (s : State) (f : State → State) : State := if s.ctlOn then f s.wake else s

/-- The reply of a shutdown has been read out: nothing is served any more (R324). -/
def State.shutOver (s : State) : Bool :=
  s.power.boot == .shutdown && s.power.replyPath.isNone && s.power.replyOut.isNone

/-- The reply of a stop is being waited for, or lies ready (R324, R355). -/
def State.stopping (s : State) : Bool := (s.power.boot == .standbyEntry || s.power.boot == .shutdown) && !s.shutOver

/-- A read of MGT_REPLY_FIFO also reaches its register while a stop waits for its reply to be read (R324, R355, R377). -/
def State.replyOn (s : State) : Bool := s.ctlOn || (s.stopping && s.saf.safe != .stop)

/-- A link that carries messages, or will after a wake. -/
def LinkState.alive : LinkState → Bool
  | .active => true | .sleepLight => true | .sleepDeep => true | .retrain => true | _ => false

def LinkState.asleep : LinkState → Bool
  | .sleepLight => true | .sleepDeep => true | _ => false

/-- The state from which an enabled link starts (R60): DETECT, or DETACHED on CW14 and CW15 with the presence pin high. -/
def Link.startState (k : Link) (l : Nat) : LinkState := if decide (14 ≤ l) && k.prsntHigh then .detached else .detect

/-- The tolls for a message are held and the replay buffer has room (R46, R49). -/
def Link.canSend (k : Link) (m : Msg) : Bool :=
  k.state == .active && decide (m.slots ≤ k.txAvail.get m.cls)
    && decide (k.replayBuf.length + (m.flits 0).length ≤ 256)

/-- The acknowledgment that the link's flits carry (R44). -/
def Link.txAck (k : Link) : Option Nat := if k.rxAckVld then some ((k.rxExp + 1023) % 1024) else none

/-- A message that answers a request of the partner: its tag is free once it has left (R54). -/
def Msg.answers (m : Msg) (tag : Nat) : Bool :=
  (m.opcode == 0x20 || m.opcode == 0x30) && (m.hdr.extractLsb' 20 12).toNat == tag

/-- The replay buffer after a message is sent: `half` says that its last flit has slot 1 free in this fc (R53). -/
def Link.sendBuf (k : Link) (half : Bool) (m : Msg) : List TxFlit :=
  if half then joinHalf k.txSeq m.kinds k.replayBuf else k.replayBuf ++ m.flits k.txSeq

/-- Spend the tolls and put the flits in the replay buffer (R46, R49, R53); an answer frees its tag (R54). -/
def Link.send (k : Link) (half : Bool) (m : Msg) : Link :=
  let buf := k.sendBuf half m
  { k with
    txAvail := k.txAvail.upd m.cls (fun n => n - m.slots)
    txSent := k.txSent.upd m.cls (fun n => n + m.slots)
    txSeq := (k.txSeq + (buf.length - k.replayBuf.length)) % 1024
    replayBuf := buf
    reqTags := k.reqTags.filter (fun t => !(m.answers t))
    wbOpen := k.wbOpen.filter (fun w => !(m.answers w.1)) }

/-- Slot 1 of the last flit is free after a message of this many slots. -/
def halfAfter (half : Bool) (n : Nat) : Bool := if half then n % 2 == 0 else n % 2 == 1

/-- Note whether the last flit of a link has slot 1 free. -/
def State.setHalf (s : State) (l : Nat) (b : Bool) : State :=
  { s with txHalf := if b then l :: s.txHalf.filter (· != l) else s.txHalf.filter (· != l) }

/-- Start a wake of a sleeping link (R68). -/
def State.wakeLink (s : State) (l : Nat) : State :=
  let k := s.link l
  if k.state.asleep && !k.waking then (s.wake.setLink l { k with waking := true }).emit (.wake l) else s

/-- No earlier message of the same class waits for tolls on the link. -/
def Link.classClear (k : Link) (m : Msg) : Bool := k.txWait.all (fun w => w.cls != m.cls)

/-- Send a message on a link: at once when it can go, otherwise it waits for tolls or for the link (R48, R68). A
message to a link that carries nothing is dropped by its caller. The number of MSG flits that leave comes with it. -/
def State.sendRaw (s : State) (l : Nat) (m : Msg) : Nat × State :=
  let k := s.link l
  let half := s.txHalf.contains l
  if k.canSend m && k.classClear m then
    ((k.sendBuf half m).length - k.replayBuf.length,
      ((s.setLink l (k.send half m)).setHalf l (halfAfter half m.slots)).emit (.msg l m k.txAck))
  else (0, (s.setLink l { k with txWait := k.txWait ++ [m] }).wakeLink l)

/-- The CTL header (R55). -/
def ctlHdr (op stream : Nat) (d : Word) : MsgSlot :=
  BitVec.ofNat 128 (4 + op * 2 ^ 3 + stream % 64 * 2 ^ 9 + d.toNat * 2 ^ 32)

/-- The event FIFO entry's low word (R320). -/
def evtLow (e : LogEnt) : Word :=
  BitVec.ofNat 32 (e.block % 256 + e.code % 256 * 2 ^ 8 + (if e.noPort then 1 else 0) * 2 ^ 16
    + e.port % 1024 * 2 ^ 17 + e.cls.code * 2 ^ 27 + 2 ^ 31)

/-- Of two entries of one fc, the one with the lower block, and then the lower code, stands first (R329). -/
def LogEnt.precedes (e x : LogEnt) : Bool :=
  x.tick == e.tick && x.fc == e.fc && (decide (e.block < x.block) || (e.block == x.block && decide (e.code < x.code)))

/-- Add an entry at the end of the log, before the entries of its own fc that it precedes (R329). -/
def logIn (e : LogEnt) (l : List LogEnt) : List LogEnt :=
  let t := l.reverse.takeWhile e.precedes
  l.take (l.length - t.length) ++ e :: t.reverse

/-- Add an event FIFO entry in the order of the log (R329): `k` entries of the log stand behind the event's own. -/
def evtIn (e : LogEnt) (k : Nat) (l : List (Word × Word)) : List (Word × Word) :=
  let key := fun (w : Word) => w.toNat % 256 * 256 + w.toNat / 256 % 256
  let t := (l.reverse.take k).takeWhile (fun x => decide (key (evtLow e) < key x.1))
  l.take (l.length - t.length) ++ (evtLow e, BitVec.ofNat 32 e.tick.toNat) :: t.reverse

/-- Push an event FIFO entry (R320, R321); `rise` raises the event threshold source. -/
def State.pushEvtBy (rise : State → State) (s : State) (e : LogEnt) : State :=
  if s.mgt.evtFifo.length < 256 then
    let m := { s.mgt with evtFifo := evtIn e (s.saf.log.reverse.takeWhile e.precedes).length s.mgt.evtFifo }
    let s := { s with mgt := m }
    if m.evtFifo.length == s.evtThreshold then rise s else s
  else s.setBit rEvtStatus 9

/-- The entry that a full log gives up: the oldest class C or information entry, otherwise the oldest (R329). -/
def logDrop : List LogEnt → Option (List LogEnt)
  | [] => none
  | e :: r => if e.cls == .c || e.cls == .info then some r else (logDrop r).map (e :: ·)

def satInc (n bound : Nat) : Nat := if n < bound then n + 1 else bound

/-- Put an entry in the error log (R329). -/
def State.pushLog (s : State) (e : LogEnt) : State :=
  if s.saf.log.length < 1024 then { s with saf := { s.saf with log := logIn e s.saf.log } }
  else match logDrop s.saf.log with
    | some l => { s with saf := { s.saf with log := logIn e l } }
    | none => ({ s with saf := { s.saf with log := logIn e s.saf.log.tail, lost := satInc s.saf.lost 65535 } }).setBit
        rSafErr 6

/-- The entry of an overflow of counter `n` (R348). -/
def State.ovfEnt (s : State) (n : Nat) : LogEnt :=
  ⟨s.tick, s.fc, 10, 0x84, .info, true, 0, 0, BitVec.ofNat 64 n, false⟩

/-- Log an overflow of counter `n` (R348). -/
def State.ovfLogBy (rise : State → State) (n : Nat) (s : State) : State :=
  (s.pushLog (s.ovfEnt n)).pushEvtBy rise (s.ovfEnt n)

/-- Add `k` occurrences to one counter (R343, R347, R348); `note` logs an overflow. -/
def State.bumpBy (note : Nat → State → State) (s : State) (n k : Nat) : State :=
  let c := s.cnt n
  let t := c.value.toNat + k
  let s := s.setCnt n { c with value := BitVec.ofNat 48 t }
  if t < 2 ^ 48 then s
  else
    let o := if n < 32 then rCntOvfLo else rCntOvfHi
    if s.bit o (n % 32) then s
    else
      let s := s.setBit o (n % 32)
      if s.bit (rCntCfg n) 9 then note n s else s

/-- Count `k` MSG flits that leave on a link (R344), code 0x03. -/
def State.countFlits (note : Nat → State → State) (s : State) (l k : Nat) : State :=
  if s.bit rCntGctl 0 || k == 0 then s
  else (cntListed s).foldl (fun s n =>
    if s.fld (rCntCfg n) 0 7 == 3 && cntPasses s n { link := some l } then s.bumpBy note n k else s) s

/-- Send an INTR message for a source bit that rose (R322). -/
def State.sendIntrBy (note : Nat → State → State) (s : State) (src sub : Nat) : State :=
  let p := s.fld rIntrRoute 0 10
  let l := p / 64
  if s.bit rIntrRoute 10 && ((s.link l).state == .active || (s.link l).state.asleep) then
    let r := s.sendRaw l ⟨ctlHdr 0x38 (p % 64) (BitVec.ofNat 32 (src + sub * 256)), []⟩
    r.2.countFlits note l r.1
  else s

/-- Raise an interrupt source (R322): a bit already 1 sends nothing further. -/
def State.raiseBy (note : Nat → State → State) (s : State) (src sub : Nat) : State :=
  if s.bit rIntrPend src then s
  else
    let s := s.setBit rIntrPend src
    let s := if s.bit rIntrMask src then s.sendIntrBy note src sub else s
    let s := if s.bit rIntrMask (20 + src) && s.mgt.i3c.canIbi then
        s.emit s.intrIbi else s
    s.driveAlert

/-- Log an overflow that an INTR message causes: the event threshold source can rise once, and what its own INTR message
overflows finds it at 1. -/
def State.ovfLog (n : Nat) (s : State) : State :=
  s.ovfLogBy (fun u => u.raiseBy (State.ovfLogBy id) 1 0) n

def State.sendIntr (s : State) (src sub : Nat) : State := s.sendIntrBy State.ovfLog src sub

def State.raise (s : State) (src sub : Nat) : State := s.raiseBy State.ovfLog src sub

def State.pushEvt (s : State) (e : LogEnt) : State := s.pushEvtBy (fun u => u.raise 1 0) e

/-- Count an entry by class (R326). -/
def State.countCls (s : State) (c : Cls) : State :=
  match c with
  | .info => s
  | .c => { s with saf := { s.saf with cntC := satInc s.saf.cntC 0xffffffff } }.raise 3 0
  | .p => { s with saf := { s.saf with cntP := satInc s.saf.cntP 0xffffffff } }.raise 4 0
  | .d => { s with saf := { s.saf with cntD := satInc s.saf.cntD 0xffffffff } }.raise 5 0
  | .x => { s with saf := { s.saf with cntX := satInc s.saf.cntX 0xffffffff } }.raise 6 0
  | .alarm => { s with saf := { s.saf with cntAlarm := satInc s.saf.cntAlarm 0xffffffff } }.raise 7 0

/-- Log an event (R328): log entry, event FIFO entry, class counter and pending bit in the same fc. `port` none:
logged against no requester. -/
def State.logEvent (s : State) (block code : Nat) (cls : Cls) (port : Option Nat) (addr : Nat)
    (detail : BitVec 64 := 0) : State :=
  let e : LogEnt := ⟨s.tick, s.fc, block, code, cls, port.isNone, port.getD 0, addr, detail, cls != .info && cls != .c⟩
  ((s.pushLog e).pushEvt e).countCls cls

/-- Add `k` occurrences to one counter (R343, R347, R348). -/
def State.bump (s : State) (n k : Nat) : State := s.bumpBy State.ovfLog n k

def countIn (code : Nat) (a : Attr) (k : Nat) : List Nat → State → State
  | [], s => s
  | n :: r, s =>
    countIn code a k r
      (if s.fld (rCntCfg n) 7 1 == 1 && s.fld (rCntCfg n) 0 7 == code && cntPasses s n a then s.bump n k else s)

/-- Demand reads and their hits for the telemetry items 17 to 19 (R298). -/
def Mgt.tally (m : Mgt) (code k : Nat) : Mgt :=
  if code = 0x21 then { m with demand := m.demand + k, wpHits := m.wpHits + k }
  else if code = 0x22 then { m with demand := m.demand + k }
  else if code = 0x27 then { m with stHits := m.stHits + k }
  else if code = 0x2A then { m with pkHits := m.pkHits + k }
  else m

/-- Count `k` occurrences of an event code (R343). Reserved codes occur never (R344). -/
def State.count (s : State) (code : Nat) (a : Attr) (k : Nat := 1) : State :=
  let s := s.setMgt (s.mgt.tally code k)
  if s.bit rCntGctl 0 then s else countIn code (a.keep code) k (cntListed s) s

/-- Send a message and count its MSG flits (R344). -/
def State.sendMsg (s : State) (l : Nat) (m : Msg) : State :=
  let r := s.sendRaw l m
  if r.1 = 0 then r.2 else r.2.count 0x03 { link := some l } r.1

/-- Send the waiting messages that can go, oldest of each class first. -/
def flushWait (l : Nat) : List Msg → State → State
  | [], s => s
  | m :: r, s => flushWait l r (s.sendMsg l m)

def State.flushLink (s : State) (l : Nat) : State :=
  let k := s.link l
  flushWait l k.txWait (s.setLink l { k with txWait := [] })

/-- Set a field of an error register and log it with code bit + 1 and its class (R330, R396). -/
def State.err (s : State) (off block bit : Nat) (cls : Cls) (port : Option Nat) (addr : Nat)
    (detail : BitVec 64 := 0) : State :=
  (s.setBit off bit).logEvent block (bit + 1) cls port addr detail

/-- A security alarm of CRY_ALARM (R264, R269, R330). -/
def State.cryAlarm (s : State) (bit : Nat) (port : Option Nat) (addr : Addr) : State :=
  let s := s.setBit rCryAlarm bit
  let s := { s with cry := { s.cry with alarmPort := port.getD 0, alarmNoPort := port.isNone, alarmAddr := addr } }
  s.logEvent 8 (0x40 + bit) .alarm port addr.toNat

/-- `port` of a log entry that names a link (R328): the link in [9:6]. -/
def linkPort (l : Nat) : Option Nat := some (l * 64)

/-! ### Roundabouts (R82) -/

/-- Distance of index `i` from pointer `p` over `n` indices. -/
def rbDist (n p i : Nat) : Nat := (i + n - p % n) % n

/-- The competitor nearest the pointer; equal indices are ordered by the secondary index. -/
def rbWinner (n p : Nat) : List (Nat × Nat) → Option (Nat × Nat)
  | [] => none
  | c :: r =>
    match rbWinner n p r with
    | none => some c
    | some w =>
      if rbDist n p c.1 < rbDist n p w.1 ∨ (c.1 = w.1 ∧ c.2 ≤ w.2) then some c else some w

/-- The pointer after a grant. -/
def rbNext (n i : Nat) : Nat := (i + 1) % n

/-! ### Lists -/

/-- Apply an operation to each item in turn. -/
def forEach {α : Type} (f : α → State → State) : List α → State → State
  | [], s => s
  | a :: r, s => forEach f r (f a s)

/-- All links, ports seen, and so on. -/
def links16 : List Nat := List.range 16

/-- Insert into a list kept strictly rising (a set of numbers). -/
def sinsert (n : Nat) : List Nat → List Nat
  | [] => [n]
  | m :: r => if n < m then n :: m :: r else if n = m then m :: r else m :: sinsert n r

def serase (n : Nat) (l : List Nat) : List Nat := l.filter (· != n)

end Sys2Proof.Machine
end

