-- ==== Sys2Proof/Machine/Operands.lean ====
section
/-! DEFINITION. Operand forms: message headers and data slots (R55 to R58), the opcode table (R56), sizes and alignment
(R139), address derivations (R27 to R30, R101, R104, R155, R157, R215, R238, R267), flits (R40, R41). -/
namespace Sys2Proof.Machine

/-! ### Bytes of lines and slots -/

/-- Byte `b` of a line (R188). -/
def lineByte (l : Line) (b : Nat) : BitVec 8 := l.extractLsb' (8 * b) 8

/-- The bit mask of the bytes `lo` to `lo + n - 1` of a line. -/
def byteMask (lo n : Nat) : Mask := BitVec.ofNat 128 ((2 ^ n - 1) * 2 ^ lo)

/-- A byte mask widened to bits. -/
def maskBits : Nat → Mask → Line
  | 0, _ => 0
  | b + 1, m => maskBits b m ||| (if m.getLsbD b then BitVec.ofNat 1024 (0xff * 2 ^ (8 * b)) else 0)

/-- The new bytes over the old ones where the mask is 1 (R87, R115). -/
def mergeLine (old new : Line) (m : Mask) : Line :=
  let w := maskBits 128 m
  (old &&& ~~~ w) ||| (new &&& w)

/-- Bytes `off` to `off + n - 1` of a line as a number, low byte first. -/
def lineNat (l : Line) (off n : Nat) : Nat := l.toNat / 2 ^ (8 * off) % 2 ^ (8 * n)

/-- A number of `n` bytes placed at byte `off` of an otherwise zero line. -/
def natLine (v off n : Nat) : Line := BitVec.ofNat 1024 (v % 2 ^ (8 * n) * 2 ^ (8 * off))

/-- Data slots laid end to end from chunk `c` of a line, low chunk first (R57). -/
def slotsFrom : Nat → List MsgSlot → Line
  | _, [] => 0
  | c, d :: r => BitVec.ofNat 1024 (d.toNat * 2 ^ (128 * c)) ||| slotsFrom (c + 1) r

/-- The data slots of `n` chunks of a line from chunk `c` (R57). -/
def lineSlots (l : Line) (c n : Nat) : List MsgSlot :=
  (List.range n).map (fun i => BitVec.ofNat 128 (l.toNat / 2 ^ (128 * (c + i))))

/-- The line bytes of a data answer outside the requested range are sent as 0 (R57). -/
def keepBytes (l : Line) (off n : Nat) : Line := mergeLine 0 l (byteMask off n)

/-! ### Addresses -/

def lineOf (a : Addr) : Nat := a.toNat / 128
def lineAddr (line : Nat) : Nat := line * 128
def offOf (a : Addr) : Nat := a.toNat % 128

/-- The regions of R29. -/
inductive Region where
  | memory | device | control
deriving DecidableEq, Repr

def regionOf (a : Addr) : Region :=
  if a.toNat < 0x2000000000 then .memory else if a.toNat < 0xFFFF800000 then .device else .control

/-- The control space offset of an address (R371). -/
def ctlOffset (a : Addr) : Nat := a.toNat - 0xFFFF800000

def natBit (n i : Nat) : Nat := n / 2 ^ i % 2

/-- The parity of the bits g[i], i mod 3 = j, of a 25-bit region number (R101). -/
def sliceBit (g j : Nat) : Nat :=
  ((List.range 25).filter (fun i => i % 3 == j)).foldl (fun p i => (p + natBit g i) % 2) 0

/-- Region number of a line: address bits [36:12] (R101). -/
def regionNo (line : Nat) : Nat := line / 32

/-- Home slice of a line (R101). -/
def sliceOf (line : Nat) : Nat :=
  let g := regionNo line
  sliceBit g 0 + 2 * sliceBit g 1 + 4 * sliceBit g 2

/-- Junction filter set of a region: address bits [19:12] (R104). -/
def filterSet (region : Nat) : Nat := region % 256
def filterTag (region : Nat) : Nat := region / 256
/-- Key of way `w` of the region's set in its slice. -/
def filterKey (region w : Nat) : Nat := sliceOf (region * 32) * 4096 + filterSet region * 16 + w

/-- Waypoint set (R157): address bits [18:7] XOR [30:19]. -/
def wpSet (line : Nat) : Nat := Nat.xor (line % 4096) (line / 4096 % 4096)
/-- Waypoint tag: address bits [36:19]. -/
def wpTag (line : Nat) : Nat := line / 4096
/-- The line a way of a set holds. -/
def wpLine (set tag : Nat) : Nat := tag * 4096 + Nat.xor set (tag % 4096)

/-- Frames in the cache partition (R155). -/
def cacheFrames (p : Nat) : Nat := 2 ^ 25 - p * 2 ^ 21

/-- Store frame and tag of a line (R155). -/
def frameOf (p line : Nat) : Nat × Nat :=
  let i := line % 2 ^ 25
  let up := line / 2 ^ 25
  if i < cacheFrames p then (i, up) else (i - 2 ^ 24, 32 + up)

/-- The line that a frame holds under a tag (R155). -/
def lineOfFrame (f tag : Nat) : Nat :=
  let up := tag % 32
  if tag < 32 then up * 2 ^ 25 + f else up * 2 ^ 25 + f + 2 ^ 24

/-- The 2 MiB region of a line: address bits [36:21]. -/
def parkRegion (line : Nat) : Nat := line / 16384
def parkIndex (line : Nat) : Nat := line % 16384

/-- The frame of line `j` of park slot `s` (R215). -/
def parkFrame (s j : Nat) : Nat := 2 ^ 25 - (s + 1) * 16384 + j

/-- Die and die frame of a frame (R155). -/
def dieOf (f : Nat) : Nat := f % 8
def dieFrame (f : Nat) : Nat := f / 8

/-- Physical slot of logical frame `l` under lane shift (R203). -/
def laneSlot (n : Lane) (l : Nat) : Nat :=
  let p := (l + n.start) % 8192
  if p ≥ n.gap then p + 1 else p

/-- DRAM channel of a line (R238). -/
def channelOf (line : Nat) : Nat :=
  Nat.xor (Nat.xor (line % 16) (line / 16 % 16)) (Nat.xor (line / 256 % 16) (line / 4096 % 16))

/-- Channel-local line number, row and bank (with the rank above the 16 banks) (R238). -/
def localLine (line : Nat) : Nat := line / 16
def rowOf (ranks2 : Bool) (line : Nat) : Nat :=
  if ranks2 then localLine line / 512 else localLine line / 256
def bankOf (ranks2 : Bool) (line : Nat) : Nat :=
  let b := Nat.xor (localLine line / 16 % 16) (rowOf ranks2 line % 16)
  if ranks2 then b + 16 * (localLine line / 256 % 2) else b

/-- First of the 64 columns that the line occupies in its row (R238). -/
def columnOf (line : Nat) : Nat := localLine line % 16 * 64

/-- 64 KiB granule of a line: address bits [36:16] (R271). -/
def granuleOf (line : Nat) : Nat := line / 512

/-! ### Opcodes and messages -/

def opRdShared : BitVec 6 := 0x00
def opRdUnique : BitVec 6 := 0x01
def opRdOnce : BitVec 6 := 0x02
def opUpgrade : BitVec 6 := 0x03
def opWbFull : BitVec 6 := 0x04
def opEvictClean : BitVec 6 := 0x05
def opWrFull : BitVec 6 := 0x06
def opWrPtl : BitVec 6 := 0x07
def opAtomic : BitVec 6 := 0x08
def opRdRsv : BitVec 6 := 0x09
def opWrCond : BitVec 6 := 0x0A
def opFence : BitVec 6 := 0x0B
def opSnpShared : BitVec 6 := 0x10
def opSnpInv : BitVec 6 := 0x11
def opFwdShared : BitVec 6 := 0x12
def opFwdUnique : BitVec 6 := 0x13
def opRegionInv : BitVec 6 := 0x14
def opCmp : BitVec 6 := 0x20
def opSnpAck : BitVec 6 := 0x21
def opData : BitVec 6 := 0x30
def opSnpData : BitVec 6 := 0x31
def opDetachReq : BitVec 6 := 0x39
def opDetachAck : BitVec 6 := 0x3A
def opHaltNotice : BitVec 6 := 0x3B

/-- Class of an opcode, none when it is reserved (R56). -/
def opClass (op : BitVec 6) : Option Nat :=
  if op.toNat ≤ 0x0B then some 0
  else if 0x10 ≤ op.toNat ∧ op.toNat ≤ 0x14 then some 1
  else if op = opCmp ∨ op = opSnpAck then some 2
  else if op = opData ∨ op = opSnpData then some 3
  else if 0x38 ≤ op.toNat ∧ op.toNat ≤ 0x3B then some 4
  else none

/-- The opcodes a link partner may send (R56, Direction). -/
def opFromPartner (op : BitVec 6) : Bool :=
  decide (op.toNat ≤ 0x0B) || op == opCmp || op == opSnpAck || op == opData || op == opSnpData || op == opDetachReq

/-- Opcodes with the Caching role (R56). -/
def opCaching (op : BitVec 6) : Bool :=
  op == opRdShared || op == opRdUnique || op == opUpgrade || op == opWbFull || op == opEvictClean

/-- Chunks that a range of a line touches (R57). -/
def chunkCount (off size : Nat) : Nat := if size = 0 then 0 else (off % 16 + size - 1) / 16 + 1

/-- Data slots that follow a request header (R56, R57). -/
def reqSlots (op : BitVec 6) (h : Req) : Nat :=
  if op = opWbFull ∨ op = opWrFull then 8
  else if op = opWrPtl ∨ op = opWrCond then chunkCount h.addr.toNat (h.sizeM1.toNat + 1)
  else if op = opAtomic then (if h.atomSize = 4 then 2 else 1)
  else 0

/-- The REQ header that the device sends to a peer window (R55, R69); stream 0 (log entry 22). -/
def reqHdr (op : BitVec 6) (tc : Nat) (priv : BitVec 2) (tag size : Nat) (addr : Addr) (orig : Nat) : MsgSlot :=
  BitVec.ofNat 128 (op.toNat * 2 ^ 3 + tc % 8 * 2 ^ 15 + priv.toNat * 2 ^ 18 + tag % 4096 * 2 ^ 20
    + (size - 1) % 128 * 2 ^ 32 + addr.toNat * 2 ^ 40 + orig % 1024 * 2 ^ 88)

/-- The REQ header as a partner sends it (R55). -/
def Req.hdr (op : BitVec 6) (h : Req) : MsgSlot :=
  BitVec.ofNat 128 (op.toNat * 2 ^ 3 + h.stream.toNat * 2 ^ 9 + h.tc.toNat * 2 ^ 15 + h.priv.toNat * 2 ^ 18
    + h.tag.toNat * 2 ^ 20 + h.sizeM1.toNat * 2 ^ 32 + h.addr.toNat * 2 ^ 40 + h.atomOp.toNat * 2 ^ 80
    + h.atomSize.toNat * 2 ^ 84)

/-- The fields of a REQ header (R55). -/
def Req.ofHdr (w : MsgSlot) : Req where
  stream := w.extractLsb' 9 6
  tc := w.extractLsb' 15 3
  priv := w.extractLsb' 18 2
  tag := w.extractLsb' 20 12
  sizeM1 := w.extractLsb' 32 7
  addr := w.extractLsb' 40 40
  atomOp := w.extractLsb' 80 4
  atomSize := w.extractLsb' 84 3

/-- The fields of an RSP or DAT header (R55). -/
def Rsp.ofHdr (w : MsgSlot) : Rsp where
  stream := w.extractLsb' 9 6
  tc := w.extractLsb' 15 3
  tag := w.extractLsb' 20 12
  status := w.extractLsb' 32 4
  state := w.extractLsb' 36 2
  fwd := w.getLsbD 38
  dirty := w.getLsbD 39
  addr := w.extractLsb' 40 40

/-- An RSP or DAT header that the device sends (R55). -/
def rspHdr (op : BitVec 6) (stream tc : Nat) (tag : BitVec 12) (status : BitVec 4) (st : BitVec 2) : MsgSlot :=
  let c := if op = opData then 3 else 2
  BitVec.ofNat 128 (c + op.toNat * 2 ^ 3 + stream % 64 * 2 ^ 9 + tc % 8 * 2 ^ 15 + tag.toNat * 2 ^ 20
    + status.toNat * 2 ^ 32 + st.toNat * 2 ^ 36)

/-- A SNP header (R55). -/
def snpHdr (op : BitVec 6) (tag addr fwd : Nat) : MsgSlot :=
  BitVec.ofNat 128 (1 + op.toNat * 2 ^ 3 + tag % 4096 * 2 ^ 20 + addr * 2 ^ 40 + fwd % 1024 * 2 ^ 80)

/-! ### Response status (R58) and states (R55) -/

def stOk : BitVec 4 := 0
def stPoison : BitVec 4 := 1
def stBusErr : BitVec 4 := 2
def stFenceLoss : BitVec 4 := 3
def stCondFail : BitVec 4 := 4
def stHalted : BitVec 4 := 5

def grI : BitVec 2 := 0
def grS : BitVec 2 := 1
def grE : BitVec 2 := 2
def grM : BitVec 2 := 3

/-! ### Sizes and alignment (R139, R373) -/

/-- The bytes an atomic size code stands for (R55). -/
def atomBytes (c : BitVec 3) : Nat := 2 ^ c.toNat

/-- The size and alignment rules of R139 for the memory and device regions, and of R373 for the control space. A
reserved atomic operation or size is refused like a size error (R151). -/
def sizeOk (op : BitVec 6) (h : Req) : Bool :=
  let size := h.sizeM1.toNat + 1
  let off := offOf h.addr
  match regionOf h.addr with
  | .control => op == opFence || ((op == opRdOnce || op == opWrPtl) && size == 4 && h.addr.toNat % 4 == 0)
  | r =>
    if op == opFence then true
    else if op == opRdOnce || op == opWrPtl then
      decide (chunkCount h.addr.toNat size ≤ 8) && (r == .memory || decide (off + size ≤ 128))
    else if op == opRdRsv || op == opWrCond then decide (off + size ≤ 128)
    else if op == opAtomic then
      (decide (h.atomSize.toNat ≤ 3) || (h.atomSize == 4 && h.atomOp == 5))
        && decide (h.atomOp.toNat ≤ 9)
        && decide (size = atomBytes h.atomSize) && decide (h.addr.toNat % atomBytes h.atomSize = 0)
    else size == 128 && off == 0

/-- The access crosses a line boundary (R140). -/
def crosses (h : Req) : Bool := decide (offOf h.addr + h.sizeM1.toNat + 1 > 128)

/-! ### Flits (R40, R41) -/

/-- One step of the reflected CRC-32C register. -/
def crcBit (c : Nat) : Nat := if c % 2 = 1 then Nat.xor (c / 2) 0x82F63B78 else c / 2

def crcByte (c b : Nat) : Nat :=
  crcBit (crcBit (crcBit (crcBit (crcBit (crcBit (crcBit (crcBit (Nat.xor c b))))))))

/-- CRC-32C over bytes (R41). -/
def crc32c (bs : List Nat) : Nat := Nat.xor (bs.foldl crcByte 0xFFFFFFFF) 0xFFFFFFFF

def flitByte (f : Flit) (b : Nat) : Nat := f.toNat / 2 ^ (8 * b) % 256

/-- The CRC over bytes 0 to 35 equals bytes 36 to 39. -/
def flitCrcOk (f : Flit) : Bool :=
  crc32c ((List.range 36).map (flitByte f)) == f.toNat / 2 ^ 288

def flitType (f : Flit) : Nat := f.toNat / 2 ^ 30 % 4
def flitSeq (f : Flit) : Nat := f.toNat / 2 ^ 20 % 1024
def flitAck (f : Flit) : Nat := f.toNat / 2 ^ 10 % 1024
def flitAckVld (f : Flit) : Bool := f.getLsbD 9
def flitKind0 (f : Flit) : Nat := f.toNat / 2 ^ 6 % 4
def flitKind1 (f : Flit) : Nat := f.toNat / 2 ^ 4 % 4
def flitLinkOp (f : Flit) : Nat := f.toNat / 2 ^ 26 % 16
def flitSlot0 (f : Flit) : MsgSlot := f.extractLsb' 32 128
def flitSlot1 (f : Flit) : MsgSlot := f.extractLsb' 160 128
/-- Parameter byte `b` of a LINK flit: byte 4 + b of the flit. -/
def flitParam (f : Flit) (b : Nat) : Nat := flitByte f (4 + b)

/-- A flit with its CRC, from the control word and bytes 4 to 35. -/
def mkFlit (ctl : Nat) (body : Nat) : Flit :=
  let v := ctl % 2 ^ 32 + body % 2 ^ 256 * 2 ^ 32
  let c := crc32c ((List.range 36).map (fun b => v / 2 ^ (8 * b) % 256))
  BitVec.ofNat 320 (v + c * 2 ^ 288)

/-- The SYNC word of a lane (R37): marker, lane, x4, block count. -/
def syncWord (lane : Nat) (x4 : Bool) (block : Nat) : Word :=
  BitVec.ofNat 32 (0x3CB5 + lane % 8 * 2 ^ 16 + (if x4 then 1 else 0) * 2 ^ 19 + block % 4096 * 2 ^ 20)

/-- The scrambler seeds by logical lane (R39). -/
def scramblerSeed (lane : Nat) : Nat :=
  [0x1DB70F21, 0x2A3C5D94, 0x3571B6E8, 0x46E2934B, 0x5B197CD6, 0x6C842A5F, 0x71D3E6B0, 0x0F6AC573].getD lane 0

/-- One bit of the PRBS31 generator and its next state (R39). -/
def prbsStep (g : Nat) : Bool × Nat :=
  let f := Nat.xor (natBit g 30) (natBit g 27)
  (f == 1, (g * 2 + f) % 2 ^ 31)

/-- Scramble the flit bits of a lane after a FILL word (R39). -/
def scramble : Nat → List Bool → List Bool
  | _, [] => []
  | g, d :: r => (d != (prbsStep g).1) :: scramble (prbsStep g).2 r

/-- The lane and the place in its share that carry flit byte `b` at width `w` (R35). -/
def byteLane (w b : Nat) : Nat × Nat := (b % w, b / w)

/-! ### DMA descriptors (R278) -/

/-- Bytes `off` to `off + n - 1` of a number. -/
def subNat (v off n : Nat) : Nat := v / 2 ^ (8 * off) % 2 ^ (8 * n)

/-- Descriptor number `i` of a fetched line, at address `addr`. -/
def descOf (l : Line) (i addr : Nat) : Desc :=
  let v := lineNat l (32 * i) 32
  { addr := addr
    op := BitVec.ofNat 4 v
    last := v.testBit 4
    irq := v.testBit 5
    tag := BitVec.ofNat 16 (v / 2 ^ 16)
    length := subNat v 4 4
    src := BitVec.ofNat 40 (subNat v 8 5)
    dst := BitVec.ofNat 40 (subNat v 16 5)
    param := BitVec.ofNat 64 (subNat v 24 8) }

/-! ### Far atomics (R151, R152) -/

/-- A number of `n` bits as a two's-complement integer. -/
def toSigned (n v : Nat) : Int := if v < 2 ^ (n - 1) then (v : Int) else (v : Int) - (2 ^ n : Nat)

/-- The value written by a far atomic of `n` bits on old value `m`, operand `v` (for CAS the compare value) and
`sw` (the swap value) (R152). -/
def atomResult (op : BitVec 4) (n m v sw : Nat) : Nat :=
  if op = 0 then (m + v) % 2 ^ n
  else if op = 1 then Nat.land m v
  else if op = 2 then Nat.lor m v
  else if op = 3 then Nat.xor m v
  else if op = 4 then v
  else if op = 5 then (if m = v then sw else m)
  else if op = 6 then (if toSigned n m ≤ toSigned n v then m else v)
  else if op = 7 then (if toSigned n v ≤ toSigned n m then m else v)
  else if op = 8 then (if m ≤ v then m else v)
  else (if v ≤ m then m else v)

/-- The operand and the swap value of an ATOMIC, from its data slots laid from byte 0 (R57, R151). -/
def atomOperands (op : BitVec 4) (size : BitVec 3) (ops : Line) : Nat × Nat :=
  let n := atomBytes size
  if op = 5 then
    if size = 4 then (lineNat ops 0 16, lineNat ops 16 16) else (lineNat ops 0 n, lineNat ops 8 n)
  else (lineNat ops 0 n, 0)

end Sys2Proof.Machine
end

