-- ==== Sys2Proof/Machine/Crypto.lean ====
section
/-! DEFINITION. The standard algorithms that the manual names (log entry 10): AES-256 (FIPS 197), XTS (IEEE 1619), CMAC
(NIST SP 800-38B), AES key wrap (RFC 3394), SHA-256 and HMAC; and their use on lines, tags and keys (R257 to R262,
R266). -/
namespace Sys2Proof.Machine

/-! ### AES-256 -/

def aesSbox : Nat :=
    0x16bb54b00f2d99416842e6bf0d89a18cdf2855cee9871e9b948ed9691198f8e19e1dc186b95735610ef6034866b53e70 * 2 ^ 1664
    + 0x8a8bbd4b1f74dde8c6b4a61c2e2578ba08ae7a65eaf4566ca94ed58d6d37c8e779e4959162acd3c25c2406490a3a32e0 * 2 ^ 1280
    + 0xdb0b5ede14b8ee4688902a22dc4f816073195d643d7ea7c41744975fec130ccdd2f3ff1021dab6bcf5389d928f40a351 * 2 ^ 896
    + 0xa89f3c507f02f94585334d43fbaaefd0cf584c4a39becb6a5bb1fc20ed00d153842fe329b3d63b52a05a6e1b1a2c8309 * 2 ^ 512
    + 0x75b227ebe28012079a059618c323c7041531d871f1e5a534ccf73f362693fdb7c072a49cafa2d4adf04759fa7dc982ca * 2 ^ 128
    + 0x76abd7fe2b670130c56f6bf27b777c63

def aesInvSbox : Nat :=
    0x7d0c2155631469e126d677ba7e042b17619953833cbbebc8b0f52aae4d3be0a0ef9cc9939f7ae52d0d4ab519a97f5160 * 2 ^ 1664
    + 0x5fec8027591012b131c7078833a8dd1ff45acd78fec0db9a2079d2c64b3e56fc1bbe18aa0e62b76f89c5291d711af147 * 2 ^ 1280
    + 0x6edf751ce837f9e28535ade72274ac9673e6b4f0cecff297eadc674f4111913a6b8a130103bdafc1020f3fca8f1e2cd0 * 2 ^ 896
    + 0x0645b3b80558e4f70ad3bc8c00abd890849d8da75746155edab9edfd5048706c92b6655dcc5ca4d41698688664f6f872 * 2 ^ 512
    + 0x25d18b6d49a25b76b224d92866a12e084ec3fa420b954cee3d23c2a632947b54cbe9dec444438e3487ff2f9b8239e37c * 2 ^ 128
    + 0xfbd7f3819ea340bf38a53630d56a0952

def subByte (table b : Nat) : Nat := table / 2 ^ (8 * b) % 256

/-- Multiplication by x in GF(2^8). -/
def gfX (b : Nat) : Nat := if b < 128 then 2 * b else Nat.xor (2 * b - 256) 0x1b

/-- Product in GF(2^8) by the four low bits of `c`. -/
def gfMul (c b : Nat) : Nat :=
  let b2 := gfX b
  let b4 := gfX b2
  let b8 := gfX b4
  let p := fun i v => if natBit c i = 1 then v else 0
  Nat.xor (Nat.xor (p 0 b) (p 1 b2)) (Nat.xor (p 2 b4) (p 3 b8))

def xorBytes : List Nat → List Nat → List Nat
  | a :: r, b :: q => Nat.xor a b :: xorBytes r q
  | _, _ => []

/-- Round constants by word index div 8. -/
def aesRcon (i : Nat) : Nat := 2 ^ (i - 1)

/-- Expand the key: the words so far are newest first. -/
def aesExpand : Nat → List (List Nat) → List (List Nat)
  | 0, ws => ws
  | n + 1, ws =>
    let i := ws.length
    let t := ws.headD []
    let t :=
      if i % 8 = 0 then
        match (t.drop 1 ++ t.take 1).map (subByte aesSbox) with
        | a :: r => Nat.xor a (aesRcon (i / 8)) :: r
        | [] => []
      else if i % 8 = 4 then t.map (subByte aesSbox)
      else t
    aesExpand n (xorBytes (ws.getD 7 []) t :: ws)

/-- Little-endian bytes of a number. -/
def natBytes : Nat → Nat → List Nat
  | 0, _ => []
  | n + 1, v => v % 256 :: natBytes n (v / 256)

def bytesNat : List Nat → Nat
  | [] => 0
  | b :: r => b + 256 * bytesNat r

def chunks4 : Nat → List Nat → List (List Nat)
  | 0, _ => []
  | n + 1, l => l.take 4 :: chunks4 n (l.drop 4)

/-- The fifteen round keys of a 256-bit key, byte 0 of the key in bits 7:0. -/
def aesRoundKeys (k : Key) : List (List Nat) :=
  let w := (aesExpand 52 (chunks4 8 (natBytes 32 k.toNat)).reverse).reverse
  (List.range 15).map (fun r => ((w.drop (4 * r)).take 4).flatten)

def shiftRows (s : List Nat) : List Nat :=
  (List.range 16).map (fun i => s.getD ((i + 4 * (i % 4)) % 16) 0)

def invShiftRows (s : List Nat) : List Nat :=
  (List.range 16).map (fun i => s.getD ((i + 12 * (i % 4)) % 16) 0)

/-- One column times the circulant matrix with first row `m`. -/
def mixColumn (m c : List Nat) : List Nat :=
  (List.range 4).map (fun r =>
    (List.range 4).foldl (fun a j => Nat.xor a (gfMul (m.getD ((j + 4 - r) % 4) 0) (c.getD j 0))) 0)

def mixColumns (m s : List Nat) : List Nat := ((chunks4 4 s).map (mixColumn m)).flatten

def aesRounds : List (List Nat) → List Nat → List Nat
  | [], s => s
  | [k], s => xorBytes (shiftRows (s.map (subByte aesSbox))) k
  | k :: r, s => aesRounds r (xorBytes (mixColumns [2, 3, 1, 1] (shiftRows (s.map (subByte aesSbox)))) k)

/-- AES-256 of one block of sixteen bytes. -/
def aesEncrypt (k : Key) (b : List Nat) : List Nat :=
  match aesRoundKeys k with
  | k0 :: r => aesRounds r (xorBytes b k0)
  | [] => []

def aesInvRounds : List (List Nat) → List Nat → List Nat
  | [], s => s
  | [k], s => xorBytes ((invShiftRows s).map (subByte aesInvSbox)) k
  | k :: r, s => aesInvRounds r (mixColumns [14, 11, 13, 9] (xorBytes ((invShiftRows s).map (subByte aesInvSbox)) k))

/-- The inverse of aesEncrypt. -/
def aesDecrypt (k : Key) (b : List Nat) : List Nat :=
  match (aesRoundKeys k).reverse with
  | k0 :: r => aesInvRounds r (xorBytes b k0)
  | [] => []

/-! ### XTS (R257) -/

/-- Multiply a tweak by α (IEEE 1619). -/
def xtsNext (t : Nat) : Nat :=
  if t < 2 ^ 127 then 2 * t else Nat.xor (2 * t - 2 ^ 128) 0x87

/-- Run `f` over `n` blocks of a data unit with the tweak of each block. -/
def xtsBlocks (f : List Nat → List Nat) : Nat → Nat → Nat → Nat
  | 0, _, _ => 0
  | n + 1, t, d =>
    let c := bytesNat (f (natBytes 16 (Nat.xor (d % 2 ^ 128) t)))
    Nat.xor c t + 2 ^ 128 * xtsBlocks f n (xtsNext t) (d / 2 ^ 128)

/-- The first tweak: the line address encrypted with the tweak key. -/
def xtsTweak (kt : Key) (line : Nat) : Nat := bytesNat (aesEncrypt kt (natBytes 16 line))

def xtsEncrypt (kd kt : Key) (line : Nat) (d : Line) : Line :=
  BitVec.ofNat 1024 (xtsBlocks (aesEncrypt kd) 8 (xtsTweak kt line) d.toNat)

def xtsDecrypt (kd kt : Key) (line : Nat) (d : Line) : Line :=
  BitVec.ofNat 1024 (xtsBlocks (aesDecrypt kd) 8 (xtsTweak kt line) d.toNat)

/-! ### CMAC (R262, R266) -/

/-- Sixteen bytes as a big-endian number. -/
def beNat (b : List Nat) : Nat := bytesNat b.reverse
def beBytes (n v : Nat) : List Nat := (natBytes n v).reverse

/-- Double a block in GF(2^128), big-endian. -/
def cmacDouble (v : Nat) : Nat := if v < 2 ^ 127 then 2 * v else Nat.xor (2 * v - 2 ^ 128) 0x87

def chunks16 : Nat → List Nat → List (List Nat)
  | 0, _ => []
  | n + 1, l => l.take 16 :: chunks16 n (l.drop 16)

def cmacChain (k : Key) (k1 : List Nat) : List (List Nat) → List Nat → List Nat
  | [], x => x
  | [b], x => aesEncrypt k (xorBytes (xorBytes b k1) x)
  | b :: r, x => cmacChain k k1 r (aesEncrypt k (xorBytes b x))

/-- AES-CMAC over a whole number of blocks, at least one. -/
def cmac (k : Key) (m : List Nat) : List Nat :=
  let k1 := beBytes 16 (cmacDouble (beNat (aesEncrypt k (List.replicate 16 0))))
  cmacChain k k1 (chunks16 (m.length / 16) m) (List.replicate 16 0)

/-- The first 64 bits of a MAC as a number whose byte 0 is the first byte (log entry 10). -/
def mac64 (m : List Nat) : BitVec 64 := BitVec.ofNat 64 (bytesNat (m.take 8))

/-! ### SHA-256 and HMAC (R312, R313) -/

def shaK : Nat :=
    0xc67178f2bef9a3f7a4506ceb90befffa8cc7020884c8781478a5636f748f82ee682e6ff35b9cca4f4ed8aa4a391c0cb3 * 2 ^ 1664
    + 0x34b0bcb52748774c1e376c0819a4c116106aa070f40e3585d6990624d192e819c76c51a3c24b8b70a81a664ba2bfe8a1 * 2 ^ 1280
    + 0x92722c8581c2c92e766a0abb650a735453380d134d2c6dfc2e1b213827b70a851429296706ca6351d5a79147c6e00bf3 * 2 ^ 896
    + 0xbf597fc7b00327c8a831c66d983e515276f988da5cb0a9dc4a7484aa2de92c6f240ca1cc0fc19dc6efbe4786e49b69c1 * 2 ^ 512
    + 0xc19bf1749bdc06a780deb1fe72be5d74550c7dc3243185be12835b01d807aa98ab1c5ed5923f82a459f111f13956c25b * 2 ^ 128
    + 0xe9b5dba5b5c0fbcf71374491428a2f98

def rotr (n x : Nat) : Nat := (x / 2 ^ n + x * 2 ^ (32 - n)) % 2 ^ 32
def xor3 (a b c : Nat) : Nat := Nat.xor (Nat.xor a b) c

/-- The message schedule, newest word first. -/
def shaSchedule : Nat → List Nat → List Nat
  | 0, w => w
  | n + 1, w =>
    let a := w.getD 14 0
    let b := w.getD 1 0
    let s0 := xor3 (rotr 7 a) (rotr 18 a) (a / 2 ^ 3)
    let s1 := xor3 (rotr 17 b) (rotr 19 b) (b / 2 ^ 10)
    shaSchedule n ((w.getD 15 0 + s0 + w.getD 6 0 + s1) % 2 ^ 32 :: w)

structure Sha where
  a : Nat
  b : Nat
  c : Nat
  d : Nat
  e : Nat
  f : Nat
  g : Nat
  h : Nat
deriving DecidableEq, Repr

def shaRound (x : Sha) (i w : Nat) : Sha :=
  let s1 := xor3 (rotr 6 x.e) (rotr 11 x.e) (rotr 25 x.e)
  let ch := Nat.xor (Nat.land x.e x.f) (Nat.land (2 ^ 32 - 1 - x.e) x.g)
  let t1 := x.h + s1 + ch + shaK / 2 ^ (32 * i) % 2 ^ 32 + w
  let s0 := xor3 (rotr 2 x.a) (rotr 13 x.a) (rotr 22 x.a)
  let mj := xor3 (Nat.land x.a x.b) (Nat.land x.a x.c) (Nat.land x.b x.c)
  ⟨(t1 + s0 + mj) % 2 ^ 32, x.a, x.b, x.c, (x.d + t1) % 2 ^ 32, x.e, x.f, x.g⟩

def shaRounds : Nat → List Nat → Sha → Sha
  | _, [], x => x
  | i, w :: r, x => shaRounds (i + 1) r (shaRound x i w)

def beWords : Nat → List Nat → List Nat
  | 0, _ => []
  | n + 1, l => beNat (l.take 4) :: beWords n (l.drop 4)

def shaBlock (x : Sha) (m : List Nat) : Sha :=
  let y := shaRounds 0 (shaSchedule 48 (beWords 16 m).reverse).reverse x
  let s := fun p q => (p + q) % 2 ^ 32
  ⟨s x.a y.a, s x.b y.b, s x.c y.c, s x.d y.d, s x.e y.e, s x.f y.f, s x.g y.g, s x.h y.h⟩

def shaBlocks : Nat → List Nat → Sha → Sha
  | 0, _, x => x
  | n + 1, m, x => shaBlocks n (m.drop 64) (shaBlock x (m.take 64))

/-- SHA-256 of a byte string, 32 bytes. -/
def sha256 (m : List Nat) : List Nat :=
  let pad := (119 - m.length % 64) % 64
  let p := m ++ (128 :: List.replicate pad 0) ++ beBytes 8 (8 * m.length)
  let x := shaBlocks (p.length / 64) p
    ⟨0x6a09e667, 0xbb67ae85, 0x3c6ef372, 0xa54ff53a, 0x510e527f, 0x9b05688c, 0x1f83d9ab, 0x5be0cd19⟩
  ([x.a, x.b, x.c, x.d, x.e, x.f, x.g, x.h].map (beBytes 4)).flatten

/-- HMAC-SHA-256 under a 256-bit key. -/
def hmac256 (k : Key) (m : List Nat) : List Nat :=
  let kb := natBytes 32 k.toNat ++ List.replicate 32 0
  sha256 (kb.map (Nat.xor 0x5c) ++ sha256 (kb.map (Nat.xor 0x36) ++ m))

def keyOfBytes (b : List Nat) : Key := BitVec.ofNat 256 (bytesNat b)

/-! ### AES key wrap (RFC 3394) -/

/-- One unwrap step on A and the registers R[1..n]. -/
def unwrapStep (k : Key) (t n : Nat) (ar : List Nat × List (List Nat)) : List Nat × List (List Nat) :=
  let i := (t - 1) % n
  let a := beBytes 8 (Nat.xor (beNat ar.1) t)
  let b := aesDecrypt k (a ++ ar.2.getD i [])
  (b.take 8, ar.2.set i (b.drop 8))

def unwrapSteps (k : Key) (n : Nat) : Nat → List Nat × List (List Nat) → List Nat × List (List Nat)
  | 0, ar => ar
  | t + 1, ar => unwrapSteps k n t (unwrapStep k (t + 1) n ar)

def chunks8 : Nat → List Nat → List (List Nat)
  | 0, _ => []
  | n + 1, l => l.take 8 :: chunks8 n (l.drop 8)

/-- Unwrap; none when the integrity check fails. -/
def keyUnwrap (k : Key) (c : List Nat) : Option (List Nat) :=
  let n := c.length / 8 - 1
  let r := unwrapSteps k n (6 * n) (c.take 8, chunks8 n (c.drop 8))
  if r.1 = List.replicate 8 0xA6 then some r.2.flatten else none

/-! ### Key slots, windows and lines (R257 to R266) -/

/-- The keys a slot holds: KS0 as the boot ROM derives it, KS1 to KS15 as loaded (R259). -/
def State.slotKeys (s : State) (ks : Nat) : Option Keys :=
  if ks = 0 then
    some ⟨Config.ks0Data Config.otpRootKey, Config.ks0Tweak Config.otpRootKey, Config.ks0Mac Config.otpRootKey⟩
  else tget noneDef s.cry.keys ks

def zeroKeys : Keys := ⟨0, 0, 0⟩

/-- The keys used for a slot number; a slot that holds no key is never enabled (R260). -/
def State.keysOf (s : State) (ks : Nat) : Keys := (s.slotKeys ks).getD zeroKeys

def State.ksEnabled (s : State) (ks : Nat) : Bool := s.bit rCryCtrl ks

/-- The first 64 bits of the CMAC of one slot in the key check value (R262). -/
def kcvOf (s : State) (ks : Nat) : BitVec 64 :=
  mac64 (cmac (s.keysOf ks).mac (ks :: List.replicate 15 0x4B))

/-- The key check value (R262). -/
def State.kcv (s : State) : BitVec 64 :=
  ((List.range 16).filter s.ksEnabled).foldl (fun v k => v ^^^ kcvOf s k) 0

def State.winValid (s : State) (n : Nat) : Bool := s.bit (rWinBase n) 31
def State.winInteg (s : State) (n : Nat) : Bool := s.bit (rWinBase n) 28
def State.winBase (s : State) (n : Nat) : Nat := s.fld (rWinBase n) 0 24
def State.winSlot (s : State) (n : Nat) : Nat := s.fld (rWinBase n) 24 4
def State.winLimit (s : State) (n : Nat) : Nat := s.fld (rWinLimit n) 0 24
def State.winTbase (s : State) (n : Nat) : Nat := s.fld (rWinTbase n) 0 24

/-- The valid windows, in ascending order. -/
def State.windows (s : State) : List Nat := (List.range 64).filter s.winValid

/-- A window contains the bytes `a` to `a + n - 1` (R263). -/
def State.winHolds (s : State) (w a n : Nat) : Bool :=
  decide (s.winBase w ≤ a / 65536) && decide ((a + n - 1) / 65536 ≤ s.winLimit w)

/-- The key slot of a line: that of the lowest-numbered valid window that contains it, or KS0 (R258). -/
def State.lineSlot (s : State) (line : Nat) : Nat :=
  match s.windows.find? (fun w => s.winHolds w (lineAddr line) 128) with
  | some w => s.winSlot w
  | none => 0

/-- The integrity window that contains a line (R265). -/
def State.integWin (s : State) (line : Nat) : Option Nat :=
  s.windows.find? (fun w => s.winInteg w && s.winHolds w (lineAddr line) 128)

/-- Address of the tag area of an integrity window and its size in bytes (R265). -/
def State.tagArea (s : State) (w : Nat) : Nat × Nat :=
  (s.winTbase w * 65536, (s.winLimit w - s.winBase w + 1) * 4096)

/-- Address of the tag line of a line, and the tag's byte in it (R267). -/
def State.tagPlace (s : State) (w line : Nat) : Nat × Nat :=
  (s.winTbase w * 65536 + (lineAddr line - s.winBase w * 65536) / 2048 * 128, line % 16 * 8)

/-- The integrity tag over the header block and the ciphertext (R266). -/
def State.tagOf (s : State) (ks line state epoch kind : Nat) (ct : Line) : BitVec 64 :=
  let h := natBytes 5 line ++ [state] ++ natBytes 2 epoch ++ [ks, kind] ++ List.replicate 6 0
  mac64 (cmac (s.keysOf ks).mac (h ++ natBytes 128 ct.toNat))

def State.encLine (s : State) (ks line : Nat) (d : Line) : Line :=
  xtsEncrypt (s.keysOf ks).data (s.keysOf ks).tweak line d

def State.decLine (s : State) (ks line : Nat) (d : Line) : Line :=
  xtsDecrypt (s.keysOf ks).data (s.keysOf ks).tweak line d

/-- The granule of a line is paved, or the line lies outside every integrity window (R271, R272). -/
def State.unpaved (s : State) (line : Nat) : Bool :=
  (s.integWin line).isSome && !(s.cry.paved.contains (granuleOf line))

end Sys2Proof.Machine
end

