-- ==== Sys2Proof/Machine/Frames.lean ====
section
/-! DEFINITION. Store frames: layout (R188), the DEC-TED code (R189, R190), where a logical frame lies (R199 to R206),
reads with retries (R191 to R194) and writes with wear (R203 to R205). -/
namespace Sys2Proof.Machine

/-! ### Layout (R188) -/

def frameData (f : FrameImg) : Line := f.extractLsb' 0 1024
def frameTag (f : FrameImg) : Nat := (f.extractLsb' 1024 6).toNat
def frameState (f : FrameImg) : Nat := (f.extractLsb' 1030 3).toNat
def frameEpoch (f : FrameImg) : Nat := (f.extractLsb' 1033 16).toNat
def frameSlot (f : FrameImg) : Nat := (f.extractLsb' 1049 4).toNat
def frameItag (f : FrameImg) : BitVec 64 := f.extractLsb' 1053 64
def frameTmark (f : FrameImg) : Bool := f.getLsbD 1128

/-! ### The code (R189, R190) -/

/-- Remainder of the `n` low bits of `v` as a polynomial modulo the polynomial `g` of degree `d`. -/
def polyRem (g d : Nat) : Nat → Nat → Nat → Nat
  | 0, _, r => r
  | n + 1, v, r =>
    let q := 2 * r + natBit v n
    polyRem g d n v (if 2 ^ d ≤ q then Nat.xor q g else q)

/-- The generator, the product of the minimal polynomials of α and α^3 (R189). -/
def bchGen : Nat := 0x4905B1

/-- Multiplication by α in GF(2^11). -/
def alphaMul (v : Nat) : Nat := if v < 2 ^ 10 then 2 * v else Nat.xor (2 * v) 0x805

def gf11Steps : Nat → Nat → Nat → Nat → Nat
  | 0, _, _, r => r
  | n + 1, a, b, r => gf11Steps n (alphaMul a) (b / 2) (if b % 2 = 1 then Nat.xor r a else r)

/-- Product in GF(2^11). -/
def gf11Mul (a b : Nat) : Nat := gf11Steps 11 a b 0

def gf11Cube (a : Nat) : Nat := gf11Mul a (gf11Mul a a)

/-- The check bits of frame bits 0 to 1,128. -/
def bchCheck (m : Nat) : Nat := polyRem bchGen 22 1151 (m * 2 ^ 22) 0

/-- Parity of the `n` low bits. -/
def parityOf : Nat → Nat → Nat
  | 0, _ => 0
  | n + 1, v => (v + parityOf n (v / 2)) % 2

/-- The codeword for frame bits 0 to 1,128. -/
def bchEncode (m : Nat) : FrameImg :=
  let v := m % 2 ^ 1129 + bchCheck (m % 2 ^ 1129) * 2 ^ 1129
  BitVec.ofNat 1152 (v + parityOf 1151 v * 2 ^ 1151)

/-- Frame bits 0 to 1,150 as the received polynomial. -/
def bchWord (f : FrameImg) : Nat := f.toNat % 2 ^ 1129 * 2 ^ 22 + f.toNat / 2 ^ 1129 % 2 ^ 22

def syndrome1 (c : Nat) : Nat := polyRem 0x805 11 1151 c 0

def syndrome3Steps : Nat → Nat → Nat → Nat
  | 0, _, r => r
  | n + 1, c, r => syndrome3Steps n c (Nat.xor (alphaMul (alphaMul (alphaMul r))) (natBit c n))

def syndrome3 (c : Nat) : Nat := syndrome3Steps 1151 c 0

/-- The exponent of `t` among the next `n` powers, from α^e = `p` on. -/
def logFrom : Nat → Nat → Nat → Nat → Option Nat
  | 0, _, _, _ => none
  | n + 1, p, e, t => if p = t then some e else logFrom n (alphaMul p) (e + 1) t

/-- log of `t` when it is an exponent in use. -/
def gf11Log (t : Nat) : Option Nat := if t = 0 then none else logFrom 1151 1 0 t

/-- Two exponents in use whose powers have the sum `s1` and the sum of cubes `s3`. -/
def pairFrom (s1 s3 : Nat) : Nat → Nat → Nat → Option (Nat × Nat)
  | 0, _, _ => none
  | n + 1, p, e =>
    let q := Nat.xor s1 p
    if q ≠ 0 ∧ Nat.xor (gf11Cube p) (gf11Cube q) = s3 then (gf11Log q).map (fun g => (e, g))
    else pairFrom s1 s3 n (alphaMul p) (e + 1)

/-- The frame bit of an exponent. -/
def expBit (e : Nat) : Nat := if e < 22 then 1129 + e else e - 22

/-- Outcome of the decoder: the positions to correct, or none when uncorrectable (R190). -/
def bchErrors (f : FrameImg) : Option (List Nat) :=
  if f = 0 then some []
  else
    let c := bchWord f
    let s1 := syndrome1 c
    let s3 := syndrome3 c
    let odd := parityOf 1152 f.toNat = 1
    if s1 = 0 ∧ s3 = 0 then (if odd then some [1151] else some [])
    else if s3 = gf11Cube s1 then
      (gf11Log s1).map (fun e => if odd then [expBit e] else [expBit e, 1151])
    else if odd then none
    else (pairFrom s1 s3 1151 1 0).map (fun p =>
      let a := expBit p.1
      let b := expBit p.2
      if a < b then [a, b] else [b, a])

def flipBits : List Nat → FrameImg → FrameImg
  | [], f => f
  | p :: r, f => flipBits r (f ^^^ BitVec.ofNat 1152 (2 ^ p))

/-- Steps 2 and 3 of R191. -/
def framePasses (f : FrameImg) : Bool := !(frameTmark f) && (HState.ofCode (frameState f)).isSome

/-- What the decoder makes of an image: the corrected image and how many bits were wrong. -/
def bchDecode (f : FrameImg) : Option (FrameImg × Nat) :=
  (bchErrors f).map (fun ps => (flipBits ps f, ps.length))

/-- Sub-lists of a list. -/
def subsets : List Nat → List (List Nat)
  | [] => [[]]
  | a :: r => subsets r ++ (subsets r).map (a :: ·)

/-- Decode with erasures at `eras`: some assignment of the erased bits leaves `e` errors outside them with
2 e + f ≤ 5 (R193). -/
def eraseDecode (f : FrameImg) (eras : List Nat) : Option FrameImg :=
  if 5 < eras.length then none
  else (subsets eras).findSome? (fun z =>
    let g := flipBits z f
    match bchErrors g with
    | some ps =>
      let h := flipBits ps g
      if 2 * ps.length + eras.length ≤ 5 ∧ (ps.all (fun p => !(eras.contains p))) ∧ framePasses h then some h
      else none
    | none => none)

def bitPositions (f : FrameImg) : List Nat := (List.range 1152).filter (fun i => f.getLsbD i)

/-- The result of a frame read (R191 steps 1 to 3, R193): the image, and 0 clean, 1 or 2 corrections, 3 recovered. -/
def readImage (stored : FrameImg) (e : FrameErr) : Option (FrameImg × Nat) :=
  let a := stored ^^^ e.e1
  match bchDecode a with
  | some (f, n) => if framePasses f then some (f, n) else retryImage stored e
  | none => retryImage stored e
where
  retryImage (stored : FrameImg) (e : FrameErr) : Option (FrameImg × Nat) :=
    let a := stored ^^^ e.e1
    let b := stored ^^^ e.e2
    let c := stored ^^^ e.e3
    let maj := (a &&& b) ||| (a &&& c) ||| (b &&& c)
    (eraseDecode maj (bitPositions ((a ^^^ b) ||| (a ^^^ c)))).map (fun f => (f, 3))

/-! ### Where a frame lies (R199 to R206) -/

/-- Key of a physical slot: die, physical segment, slot. Segment 528 holds the spare frames, 529 the test frames. -/
def physKey (die pseg slot : Nat) : Nat := die * 2 ^ 24 + pseg * 2 ^ 14 + slot
def spareKey (die n : Nat) : Nat := physKey die 528 n
def testKey (die n : Nat) : Nat := physKey die 529 n

/-- The physical segment in service for a logical segment: the highest spare segment that has replaced it (R202,
R206). -/
def Die.pseg (d : Die) (lseg : Nat) : Nat :=
  ((List.range 16).reverse.find? (fun k => tget noneDef d.segMap k == some lseg)).elim lseg (512 + ·)

/-- A spare segment is free when no map entry names it and no retirement fills it. -/
def Die.spareFree (d : Die) (k : Nat) : Bool :=
  (tget noneDef d.segMap k).isNone && (match d.retire with | some r => r.spare != 512 + k | none => true)

def Die.freeSpares (d : Die) : Nat := ((List.range 16).filter d.spareFree).length

/-- Physical segment and slot that lane shift gives a logical frame (R203, R206). -/
def Die.place (d : Die) (lseg l : Nat) : Nat × Nat :=
  match d.retire with
  | some r =>
    if r.lseg = lseg then
      if l < r.ptr then (r.spare, laneSlot r.lane l) else (r.old, laneSlot (tget laneDef d.lanes lseg) l)
    else (d.pseg lseg, laneSlot (tget laneDef d.lanes lseg) l)
  | none => (d.pseg lseg, laneSlot (tget laneDef d.lanes lseg) l)

/-- The closure entry of a physical slot. -/
def Die.slotClosed (d : Die) (pseg slot : Nat) : Bool :=
  (List.range 128).any (fun i => tget noneDef d.closure i == some (pseg, slot))

/-- The detour word of a physical slot. -/
def Die.detourOf (d : Die) (pseg slot : Nat) : Option (Nat × Detour) :=
  (List.range 32).findSome? (fun i =>
    match tget noneDef d.detours i with
    | some w => if w.pseg = pseg ∧ w.slot = slot then some (i, w) else none
    | none => none)

/-- The spare of a segment that is being closed: no physical segment (R207). -/
def closingSeg : Nat := 1024

/-- The frame key that serves a physical slot, none when it is closed (R200, R201, R207). -/
def Die.serve (d : Die) (n pseg slot : Nat) : Option Nat :=
  if pseg = closingSeg || d.slotClosed pseg slot then none
  else match d.detourOf pseg slot with
    | some (_, w) => some (spareKey n w.spare)
    | none => some (physKey n pseg slot)

/-- Shoulder mode after its drain: every request passes directly to DRAM (R304, R339). -/
def State.offline (s : State) : Bool := s.mgt.shoulder && !s.saf.drainBusy

/-- The frame key of a logical frame, none when it is bypassed (R201, R207) or the store is out of use (R304). -/
def State.locate (s : State) (f : Nat) : Option Nat :=
  let n := dieOf f
  let d := s.die n
  let lseg := dieFrame f / 8192
  if s.offline || d.closed.contains lseg then none
  else
    let p := d.place lseg (dieFrame f % 8192)
    d.serve n p.1 p.2

def State.bypassed (s : State) (f : Nat) : Bool := (s.locate f).isNone

/-- The stored image of a logical frame. -/
def State.image (s : State) (f : Nat) : FrameImg :=
  match s.locate f with
  | some k => tget frameDef s.sto.frames k
  | none => 0

/-! ### Writes and wear -/

/-- One frame write of a physical segment in the lifetime counter (R205). -/
def Life.inc (l : Life) : Life :=
  if l.rem + 1 < 2 ^ 20 then { l with rem := l.rem + 1 }
  else { units := satInc l.units 0xffffffff, rem := 0 }

/-- A segment must be retired (R199, R206). -/
def Die.due (d : Die) (lseg : Nat) : Die := { d with retireDue := sinsert lseg d.retireDue }

/-- Count a write to a physical segment; the logical segment becomes due for retirement at the threshold (R206). -/
def State.wear (s : State) (n lseg pseg : Nat) : State :=
  let d := s.die n
  let l := (tget lifeDef d.life pseg).inc
  let d := { d with life := tset lifeDef d.life pseg l }
  s.setDie n (if s.retireThresh ≤ l.units then d.due lseg else d)

/-- Count a write to a logical segment toward its next move (R203, R204). -/
def State.laneCount (s : State) (n lseg : Nat) : State :=
  let d := s.die n
  let a := tget laneDef d.lanes lseg
  if a.writes + 1 < 64 then s.setDie n { d with lanes := tset laneDef d.lanes lseg { a with writes := a.writes + 1 } }
  else if a.owed < 15 then
    s.setDie n { d with lanes := tset laneDef d.lanes lseg { a with writes := 0, owed := a.owed + 1 } }
  else
    (s.setDie n { d with lanes := tset laneDef d.lanes lseg { a with writes := 0 } }).err rStoErr 5 8 .info none 0
      (BitVec.ofNat 64 n)

def State.putFrame (s : State) (k : Nat) (f : FrameImg) : State :=
  { s with sto := { s.sto with frames := tset frameDef s.sto.frames k f } }

/-- Write a logical frame: the image goes to the frame that serves it, the segment's counters move (R203, R205), and a
correction owed to the frame falls away (R194). A bypassed frame takes no write. -/
def State.writeFrame (s : State) (f : Nat) (img : FrameImg) : State :=
  match s.locate f with
  | none => s
  | some k =>
    let n := dieOf f
    let lseg := dieFrame f / 8192
    let p := (s.die n).place lseg (dieFrame f % 8192)
    let s := s.putFrame k img
    let s := { s with sto := { s.sto with corrections := s.sto.corrections.filter (fun c => c.key != f) } }
    (s.wear n lseg p.1).laneCount n lseg

/-- The `detail` of a STO entry: die, die frame, lines poisoned (R328). -/
def stoDetail (f lines : Nat) : BitVec 64 :=
  BitVec.ofNat 64 (dieOf f + dieFrame f * 8 + lines * 2 ^ 32)

/-- Account for a read that needed `fix` (R194): one error counts in STO_CORR, two errors and a recovery are logged. -/
def State.noteRead (s : State) (f fix : Nat) (port : Option Nat) (line : Nat) : State :=
  if fix = 0 then s
  else
    let s := if fix ≤ 2 then s.count 0x2B { addr := some (lineAddr line) } else s
    if fix = 1 then { s with sto := { s.sto with corr := satInc s.sto.corr 0xffffffff } }
    else s.err rStoErr 5 (if fix = 2 then 0 else 1) .c port (lineAddr line) (stoDetail f 0)

/-- A read that needed `fix` by a transaction that may not write the frame: a rewrite is owed (R194). -/
def State.noteFix (s : State) (f : Nat) (img : FrameImg) (fix : Nat) (port : Option Nat) (line : Nat) : State :=
  if fix = 0 then s
  else
    let s := s.noteRead f fix port line
    let c : Correction := ⟨f, img, s.image f, decide (2 ≤ fix), port⟩
    { s with sto := { s.sto with corrections := s.sto.corrections.filter (fun x => x.key != f) ++ [c] } }

/-! ### Frame contents -/

/-- A frame of a line (R188): ciphertext, tag, state, epoch, key slot, integrity tag. Frames in HI and HP carry no
checked tag. -/
def State.buildFrame (s : State) (line tag state epoch : Nat) (d : Line) : FrameImg :=
  let ks := s.lineSlot line
  let ct := s.encLine ks line d
  let it := s.tagOf ks line state epoch 0x46 ct
  bchEncode (ct.toNat + tag % 64 * 2 ^ 1024 + state % 8 * 2 ^ 1030 + epoch % 65536 * 2 ^ 1033 + ks % 16 * 2 ^ 1049
    + it.toNat * 2 ^ 1053)

/-- HI with epoch 0 and zero data, as resurfacing and fault removal write it (R200, R208). -/
def voidFrame : FrameImg := 0

/-- The same line under another state or epoch: the ciphertext is kept, tag and check bits are new. -/
def State.restateFrame (s : State) (img : FrameImg) (line state epoch : Nat) : FrameImg :=
  let ks := frameSlot img
  let it := s.tagOf ks line state epoch 0x46 (frameData img)
  bchEncode ((frameData img).toNat + frameTag img * 2 ^ 1024 + state % 8 * 2 ^ 1030 + epoch % 65536 * 2 ^ 1033
    + ks * 2 ^ 1049 + it.toNat * 2 ^ 1053)

/-- Step 5 of R191: the frame's slot is enabled and its tag verifies for the line (R258, R266). -/
def State.itagOk (s : State) (img : FrameImg) (line : Nat) : Bool :=
  s.ksEnabled (frameSlot img)
    && s.tagOf (frameSlot img) line (frameState img) (frameEpoch img) 0x46 (frameData img) == frameItag img

/-- The plaintext of a frame. -/
def State.frameLine (s : State) (img : FrameImg) (line : Nat) : Line :=
  s.decLine (frameSlot img) line (frameData img)

/-! ### Hard faults (R199 to R201) -/

/-- Detour words and closure entries of a physical segment. -/
def Die.faults (d : Die) (pseg : Nat) : Nat :=
  ((List.range 32).filter (fun i => match tget noneDef d.detours i with | some w => w.pseg == pseg | none => false)).length
    + ((List.range 128).filter
        (fun i => match tget noneDef d.closure i with | some p => p.1 == pseg | none => false)).length

/-- Spare frames that no word names and that have not failed. -/
def Die.goodSpare (d : Die) : Option Nat :=
  (List.range 32).find? (fun n =>
    !(d.failedSpares.contains n)
      && (List.range 32).all (fun i => match tget noneDef d.detours i with | some w => w.spare != n | none => true))

/-- Enter a physical slot in the closure list, if it has room (R201). -/
def Die.close (d : Die) (pseg slot : Nat) : Option Die :=
  ((List.range 128).find? (fun i => (tget noneDef d.closure i).isNone)).map (fun i =>
    { d with closure := tset noneDef d.closure i (some (pseg, slot)) })

def Die.closureFull (d : Die) : Bool := (List.range 128).all (fun i => (tget noneDef d.closure i).isSome)

/-- The logical segment that a physical segment serves. -/
def Die.lsegOf (d : Die) (pseg : Nat) : Option Nat :=
  let g := if pseg < 512 then some pseg else tget noneDef d.segMap (pseg - 512)
  g.filter (fun x => d.pseg x == pseg)

/-- Logical segments of a die that must be retired by their lifetime or their faults (R199, R206). -/
def State.dueOf (s : State) (d : Die) : List Nat :=
  let old := (d.life.filter (fun e => decide (s.retireThresh ≤ e.2.units))).map Prod.fst
  let bad := ((d.detours.filterMap (fun e => e.2.map (·.pseg))) ++ d.closure.filterMap (fun e => e.2.map Prod.fst)).filter
    (fun g => decide (s.segFaultMax ≤ d.faults g))
  ((old ++ bad).filterMap d.lsegOf).filter (fun g => !(d.closed.contains g))

/-- The conditions of R199 for retirement are judged anew: a threshold or a counter has changed. -/
def State.dueScan (s : State) : State :=
  forEach (fun n s => s.setDie n ((s.dueOf (s.die n)).foldl Die.due (s.die n))) (List.range 8) s

/-- Remove a hard-faulted frame by the first layer that applies (R199, R200); `content` is what the spare, or the frame that
waits for its segment's retirement, receives. -/
def State.hardFault (s : State) (f : Nat) (content : FrameImg) : State :=
  let n := dieOf f
  let d := s.die n
  let lseg := dieFrame f / 8192
  let p := d.place lseg (dieFrame f % 8192)
  let closeIt := fun (s : State) (d : Die) =>
    match d.close p.1 p.2 with
    | some d => (s.setDie n d).err rStoErr 5 5 .c none 0 (stoDetail f 0)
    | none =>
      let s := s.setDie n (d.due lseg)
      match s.locate f with
      | some k => s.putFrame k content
      | none => s
  let s : State :=
    match d.detourOf p.1 p.2 with
    | some (i, w) =>
      let d := { d with failedSpares := sinsert w.spare d.failedSpares }
      match d.goodSpare with
      | some sp =>
        ((s.setDie n { d with detours := tset noneDef d.detours i (some { w with spare := sp }) }).putFrame
          (spareKey n sp) content).err rStoErr 5 4 .c none 0 (stoDetail f 0)
      | none => closeIt s { d with detours := tset noneDef d.detours i none }
    | none =>
      match (List.range 32).find? (fun i => (tget noneDef d.detours i).isNone), d.goodSpare with
      | some i, some sp =>
        ((s.setDie n { d with detours := tset noneDef d.detours i (some ⟨p.1, p.2, sp⟩) }).putFrame
          (spareKey n sp) content).err rStoErr 5 4 .c none 0 (stoDetail f 0)
      | _, _ => closeIt s d
  let d := s.die n
  if decide (s.segFaultMax ≤ d.faults p.1) || d.closureFull then s.setDie n (d.due lseg) else s

end Sys2Proof.Machine
end

