-- ==== Sys2Proof/Machine/Dram.lean ====
section
/-! DEFINITION. Where a line is held (R155, R156, R159, R217, R218), the lookup of the waypoint, the reservations that a line's
state ends (R148), and the poison list (R251). -/
namespace Sys2Proof.Machine

/-! ### Installed memory (R237) -/

/-- Installed size S in bytes: 16 × density × ranks (R237). -/
def State.memBytes (s : State) : Nat := 2 ^ 34 * 2 ^ s.mem.density * (if s.mem.ranks2 then 2 else 1)

/-- MEM_STATUS.size: 0 16, 1 32, 2 64, 3 128 GiB. -/
def State.memCode (s : State) : Nat := s.mem.density + (if s.mem.ranks2 then 1 else 0)

/-- A line below the installed size (R29). -/
def State.installed (s : State) (line : Nat) : Bool := decide (lineAddr line < s.memBytes)

/-! ### Where a line is served (R155, R217, R218) -/

/-- What serves a line. -/
inductive Served where
  /-- The cache frame and DRAM. -/
  | normal
  /-- The park frame in this slot. -/
  | park (slot : Nat)
  /-- No place: the line's slot is LOST. -/
  | lost
deriving DecidableEq, Repr

/-- The park slots that name a region in a state other than FREE and CLOSED. -/
def State.regionSlots (s : State) (region : Nat) : List (Nat × PSlot) :=
  s.prk.slots.filter (fun e => e.2.region == region && e.2.pstate != .free && e.2.pstate != .closed)

/-- The slot that decides for a region: the source of a relocation comes before its target. -/
def State.regionSlot (s : State) (region : Nat) : Option (Nat × PSlot) :=
  let c := s.regionSlots region
  match c.find? (fun e => e.2.pstate == .moving) with
  | some e => some e
  | none => c.head?

/-- The state column of R217; a spilled line, and one that the full spill list did not take, follows the normal path (R223). -/
def State.served (s : State) (line : Nat) : Served :=
  if s.prk.spill.contains line then .normal
  else match s.regionSlot (parkRegion line) with
    | none => .normal
    | some (k, p) =>
      let m := p.moved.contains (parkIndex line)
      match p.pstate with
      | .parking => if m && !(p.out.contains (parkIndex line)) then .park k else .normal
      | .parked => .park k
      | .unparking => if m then .normal else .park k
      | .lost => .lost
      | .moving =>
        if !m then .park k
        else if (s.pslot (p.target.getD k)).out.contains (parkIndex line) then .normal else .park (p.target.getD k)
      | .free => .normal
      | .closed => .normal

/-- The frame a line is looked up in, its tag there, and the park slot of a park frame. -/
structure Place where
  frame : Nat
  tag : Nat
  park : Option Nat
deriving DecidableEq, Repr

def State.placeIn (s : State) (line : Nat) (v : Served) : Place :=
  match v with
  | .park k => ⟨parkFrame k (parkIndex line), parkRegion line % 64, some k⟩
  | _ => let p := frameOf s.prk.size line; ⟨p.1, p.2, none⟩

def State.placeOf (s : State) (line : Nat) : Place := s.placeIn line (s.served line)

/-- The epoch a frame write at a place records: the current epoch, or the slot's generation (R182, R216). -/
def State.placeEpoch (s : State) (p : Place) : Nat :=
  match p.park with
  | some k => (s.pslot k).gen
  | none => s.sto.epoch

/-- The state a frame write at a place records: a park frame holds HD, HLD or HP (R216). -/
def parkState (st : HState) : HState :=
  match st with
  | .hp => .hp | .hlc => .hld | .hld => .hld | _ => .hd

def placeState (p : Place) (st : HState) : HState := if p.park.isSome then parkState st else st

/-- The frame image of a line at its place. -/
def State.frameAt (s : State) (p : Place) (line : Nat) (st : HState) (d : Line) : FrameImg :=
  s.buildFrame line p.tag (placeState p st).code (s.placeEpoch p) d

/-- What a verified frame image says about a line at a place (R161, R191, R216). -/
inductive Found where
  /-- The frame does not hold the line; the line it holds in the current epoch, with its state. -/
  | miss (victim : Option (Nat × HState))
  | hit (st : HState)
  | poison
  | integ (st : HState)
deriving DecidableEq, Repr

def frameHs (img : FrameImg) : HState := (HState.ofCode (frameState img)).getD .hi

def State.judge (s : State) (p : Place) (line : Nat) (img : FrameImg) : Found :=
  let st := frameHs img
  match p.park with
  | some k =>
    if frameEpoch img ≠ (s.pslot k).gen ∨ frameTag img ≠ p.tag then .integ .hd
    else if st == .hp then .poison
    else if s.itagOk img line then .hit (if st == .hi then .hd else st) else .integ .hd
  | none =>
    if s.sto.epoch = 0 ∨ frameEpoch img ≠ s.sto.epoch ∨ st = .hi then .miss none
    else if frameTag img ≠ p.tag then .miss (some (lineOfFrame p.frame (frameTag img), st))
    else if st == .hp then .poison
    else if s.itagOk img line then .hit st else .integ st

/-! ### Waypoint lookup (R157 to R160) -/

def wayKey (set w : Nat) : Nat := set * 16 + w

/-- A way holds the line. -/
def State.wayHolds (s : State) (line w : Nat) : Bool :=
  let y := s.way (wayKey (wpSet line) w)
  y.valid && y.wtag == wpTag line

/-- Key of the way that holds a line. -/
def State.wayOf (s : State) (line : Nat) : Option Nat :=
  ((List.range 16).find? (s.wayHolds line)).map (wayKey (wpSet line))

/-- `wdirty`: a way whose two copies differ counts as dirty (R187). -/
def Way.dirty (y : Way) : Bool := y.wdirtyA || y.wdirtyB

def Way.setDirty (y : Way) (b : Bool) : Way := { y with wdirtyA := b, wdirtyB := b }

/-- The line that a way holds. -/
def wayLine (k : Nat) (y : Way) : Nat := wpLine (k / 16) y.wtag

def State.dirtyWays (s : State) : List (Nat × Way) := s.wp.ways.filter (fun e => e.2.valid && e.2.dirty)
def State.dirtyCnt (s : State) : Nat := s.dirtyWays.length
def State.lockedCnt (s : State) : Nat := (s.wp.ways.filter (fun e => e.2.lock)).length

/-- The bits of a word's fields that the tag parity covers (R158). -/
def Way.parity (y : Way) : Bool :=
  let b := fun (x : Bool) => if x then 1 else 0
  (parityOf 18 y.wtag + parityOf 3 y.hstate.code + parityOf 4 y.stamp + b y.valid + b y.wdirtyA + b y.wdirtyB
    + b y.lock + b y.ref) % 2 == 1

/-- Store a way with good parity. -/
def State.putWay (s : State) (k : Nat) (y : Way) : State := s.setWay k { y with tpar := y.parity }

/-- An invalid way keeps its lock (R176). -/
def Way.clear (y : Way) : Way := { Way.init with lock := y.lock }

def State.dropWay (s : State) (k : Nat) : State := s.putWay k (s.way k).clear

/-! ### Reservations (R147, R148) -/

/-- Bring the port table back to its canonical form after a change of every entry. -/
def State.trimPorts (s : State) : State :=
  { s with ports := s.ports.foldl (fun t e => tset portDef t e.1 e.2) [] }

def State.granuleBase (s : State) (a : Nat) : Nat := a / s.rsvGranule * s.rsvGranule

/-- Cancel the reservations that `hit` names on granules that hold a byte of `a` to `a + n - 1`, set before order `o`. -/
def State.cancelRsv (s : State) (a n o : Nat) (hit : Nat → Bool) : State :=
  let g := s.rsvGranule
  State.trimPorts { s with ports := s.ports.map (fun (e : Nat × Port) =>
      match e.2.rsv with
      | some b =>
        if hit e.1 && decide (b < a + n) && decide (a < b + g) && decide (e.2.rsvOrder < o) then
          (e.1, { e.2 with rsv := none })
        else e
      | none => e) }

/-- A line enters HP: the reservations on its granule end. -/
def State.cancelLine (s : State) (line : Nat) : State :=
  s.cancelRsv (lineAddr line) 128 s.order (fun _ => true)

/-! ### The poison list (R251) -/

def State.poisonIdx (s : State) (line : Nat) : Option Nat :=
  (s.mem.poison.find? (fun e => e.2 == some line)).map Prod.fst

def State.poisonListed (s : State) (line : Nat) : Bool := (s.poisonIdx line).isSome

def State.poisonUsed (s : State) : Nat := s.mem.poison.length

/-- Enter a line: the lowest-numbered free entry (R251); false when the list is full (R198). -/
def State.poisonAdd (s : State) (line : Nat) : Bool × State :=
  if s.poisonListed line then (true, s)
  else match (List.range 1024).find? (fun i => (tget noneDef s.mem.poison i).isNone) with
    | some i => (true, { s with mem := { s.mem with poison := tset noneDef s.mem.poison i (some line) } })
    | none => (false, s)

/-- Enter a line, whose granule's reservations end (R148); a full list is logged, and the halt follows (R198). -/
def State.poisonPut (s : State) (line : Nat) : State :=
  let r := (s.cancelLine line).poisonAdd line
  if r.1 then r.2
  else { r.2.logEvent 7 0x80 .d none (lineAddr line) with mem := { (r.2.logEvent 7 0x80 .d none (lineAddr line)).mem with
    overflow := true } }

/-- Free the entry of a line. -/
def State.poisonFree (s : State) (line : Nat) : State :=
  match s.poisonIdx line with
  | some i => { s with mem := { s.mem with poison := tset noneDef s.mem.poison i none } }
  | none => s

/-! ### Frame copies -/

/-- The line as a frame holds it, if it does. -/
def State.frameCopy (s : State) (line : Nat) : Option (HState × Line) :=
  let p := s.placeOf line
  if s.bypassed p.frame then none
  else
    let img := s.image p.frame
    match s.judge p line img with
    | .hit st => some (st, s.frameLine img line)
    | .poison => some (.hp, 0)
    | _ => none

/-- Write a line's frame at its place. -/
def State.writeLineFrame (s : State) (line : Nat) (st : HState) (d : Line) : State :=
  let p := s.placeOf line
  s.writeFrame p.frame (s.frameAt p line st d)

end Sys2Proof.Machine
end

