-- ==== Sys2Proof/Machine/Ddr.lean ====
section
/-! DEFINITION. Main memory: the channels and their queues (R238 to R246, R253), the array, the tag buffers (R267, R268, R270)
and what a read or write of a line does with them (R256 to R258, R266, R274). -/
namespace Sys2Proof.Machine

/-! ### Commands on a channel (R238, R241, R245, R246, R253) -/

def State.bankRow (s : State) (line : Nat) : Nat × Nat := (bankOf s.mem.ranks2 line, rowOf s.mem.ranks2 line)

/-- `n` refreshes or RFMs leave for a bank. -/
def State.emitTimes (s : State) (o : Out) : Nat → State
  | 0 => s
  | n + 1 => ((s.emit o).count 0x34 {}).emitTimes o n

/-- What is left of a bank's rolling activate count after a refresh or RFM: the DRAM's standard says it, within the old count
(R246). -/
def State.rollBack (s : State) (c b : Nat) : State :=
  let n := tget zeroDef (s.chan c).activates b
  if n = 0 then s
  else
    let f := s.fresh
    f.2.setChan c { f.2.chan c with activates := tset zeroDef (f.2.chan c).activates b (f.1 % (n + 1)) }

/-- The array of the DRAM is kept without commands: the channel keeps its own refresh, or is off (R253). -/
def ChState.selfKept : ChState → Bool
  | .selfRefresh => true | .pasr => true | .deepSleep => true | .off => true | _ => false

/-- A channel becomes active; out of self-refresh, the refreshes that its banks owe come first (R253). -/
def State.chanUp (s : State) (c : Nat) : State :=
  let ch := s.chan c
  let s := s.setChan c { ch with pstate := .active, owed := if ch.pstate == .selfRefresh then [] else ch.owed }
  if ch.pstate == .selfRefresh then forEach (fun (e : Nat × Nat) s => s.emitTimes (.refresh c e.1) e.2) ch.owed s else s

/-- From the eighth refresh or RFM that a bank owes, one goes before the command (R245, R246). -/
def State.refreshFirst (s : State) (c b : Nat) : State :=
  let ch := s.chan c
  let s := if 8 ≤ tget zeroDef ch.owed b then
      ((s.setChan c { ch with owed := tset zeroDef ch.owed b 7 }).emitTimes (.refresh c b) 1).rollBack c b else s
  let ch := s.chan c
  if 8 ≤ tget zeroDef ch.rfmOwed b then
    ((s.setChan c { ch with rfmOwed := tset zeroDef ch.rfmOwed b 7 }).emitTimes (.rfm c b) 1).rollBack c b
  else s

/-- The row of a line is open. -/
def State.rowHit (s : State) (line : Nat) : Bool :=
  tget noneDef (s.chan (channelOf line)).rows (s.bankRow line).1 == some (s.bankRow line).2

/-- Open the row of a line; an activation counts, and with `page_idle` 0 the row closes after the access (R241, R246). -/
def State.openRow (s : State) (line : Nat) : State :=
  let c := channelOf line
  let b := (s.bankRow line).1
  let ch := s.chan c
  let ch := if s.rowHit line then ch else
    { ch with
      rows := tset noneDef ch.rows b (some (s.bankRow line).2)
      activates := tset zeroDef ch.activates b (tget zeroDef ch.activates b + 1) }
  s.setChan c (if s.fld rMemCtrl 7 8 = 0 then { ch with rows := tset noneDef ch.rows b none } else ch)

/-- The PASR segment of a line: the eighth of the installed size that it lies in (R239). -/
def State.eighthOf (s : State) (line : Nat) : Nat := lineAddr line * 8 / s.memBytes

/-- What the array holds for a line: what was written last, or a free value where nothing was since its contents were
last lost (R226, R274). -/
def State.arrayLine (s : State) (line : Nat) : Line :=
  (tget noneDef s.mem.array line).getD
    (Config.dramUnwritten (tget zeroDef s.mem.losses (s.eighthOf line) * 2 ^ 30 + line))

/-- Store a line of the array, as it stands on the DRAM. -/
def State.putArray (s : State) (line : Nat) (ct : Line) : State :=
  { s with mem := { s.mem with array := tset noneDef s.mem.array line (some ct) } }

/-- The burst pair of a line leaves on its channel. -/
def State.sendCmd (s : State) (line : Nat) (write : Bool) : State :=
  let c := channelOf line
  let br := s.bankRow line
  let a : Attr := { addr := some (lineAddr line) }
  let s := (s.chanUp c).refreshFirst c br.1
  let s := if write then s.count 0x32 a else if s.rowHit line then (s.count 0x31 a).count 0x33 a else s.count 0x31 a
  (s.openRow line).emit (if write then .dramWrite c line br.1 br.2 (columnOf line) (s.arrayLine line)
    else .dramRead c line br.1 br.2 (columnOf line))

/-! ### The queues of a channel (R240, R241) -/

/-- Reads or writes: the channel drains writes when no read is pending or 24 are queued, until 8 are left (R241). -/
def Chan.steer (c : Chan) : Chan :=
  { c with draining :=
      if c.reads.isEmpty then !c.writes.isEmpty
      else if 24 ≤ c.writes.length then true
      else if c.writes.length ≤ 8 then false else c.draining }

def Chan.room (c : Chan) (write : Bool) : Bool :=
  if write then decide (c.writes.length < 32) else decide (c.reads.length < 48)

/-- The oldest command that each source offers. -/
def Chan.heads (c : Chan) : List DramCmd := (List.range 9).filterMap (fun i => c.offers.find? (fun x => x.src == i))

/-- Take an offered command into its queue. -/
def Chan.take (c : Chan) (x : DramCmd) : Chan :=
  let c := { c with offers := c.offers.erase x }
  (if x.write then { c with writes := c.writes ++ [x] } else { c with reads := c.reads ++ [x] }).steer

/-- The arbiter of a channel's sources. -/
def chanArb (c : Nat) : Nat := 900 + c

/-- Offered commands enter the queues by the roundabout over the sources, while there is room (R240). -/
def chanAccept (c : Nat) : Nat → State → State
  | 0, s => s
  | n + 1, s =>
    let ch := s.chan c
    let hs := ch.heads.filter (fun x => ch.room x.write)
    match (rbWinner 9 (s.arb (chanArb c)) (hs.map (fun x => (x.src, 0)))).bind (fun w => hs.find? (fun x => x.src == w.1)) with
    | some x => chanAccept c n ((s.setChan c (ch.take x)).setArb (chanArb c) (rbNext 9 x.src))
    | none => s

/-- The next command of a queue: one that hits an open row, else the oldest (R241). -/
def State.pickCmd (s : State) (l : List DramCmd) : Option DramCmd :=
  let w := l.filter (fun x => !x.issued)
  (w.find? (fun x => s.rowHit x.line)).orElse (fun _ => w.head?)

/-- The command that the channel issues next, none when it waits: writes are held while reads are pending, and reads while
writes drain down to 8 (R241). -/
def State.chanPick (s : State) (ch : Chan) : Option DramCmd :=
  if ch.retraining then none
  else if ch.draining then
    (if ch.reads.isEmpty || decide (8 < (ch.writes.filter (fun x => !x.issued)).length) then s.pickCmd ch.writes else none)
  else s.pickCmd ch.reads

def Chan.issue (c : Chan) (x : DramCmd) : Chan :=
  let f := fun (y : DramCmd) => if y == x then { y with issued := true } else y
  { c with reads := c.reads.map f, writes := c.writes.map f }

def chanIssue (c : Nat) : Nat → State → State
  | 0, s => s
  | n + 1, s =>
    match s.chanPick (s.chan c) with
    | some x => chanIssue c n ((s.setChan c ((s.chan c).issue x)).sendCmd x.line x.write)
    | none => s

/-- A channel takes what it has room for and issues what may go. -/
def State.chanGo (s : State) (c : Nat) : State := chanIssue c 96 (chanAccept c 128 s)

/-- Offer a command of a slot to its channel, under the index of the slice (R240). -/
def State.chanAsk (s : State) (k own line : Nat) (back write : Bool) : State :=
  let c := channelOf line
  let ch := s.chan c
  (s.setChan c { ch with offers := ch.offers ++ [⟨k, own, back, line, sliceOf own, write, false⟩] }).chanGo c

/-- A command outside the transaction slots takes its turn under the slice's index and leaves (log entry 37). -/
def State.chanPass (s : State) (line : Nat) (write : Bool) : State :=
  let c := channelOf line
  (s.setArb (chanArb c) (rbNext 9 (sliceOf line))).sendCmd line write

/-- A command for a slot, or outside the slots. -/
def State.chanDo (s : State) (who : Option Nat) (own line : Nat) (back write : Bool) : State :=
  match who with
  | some k => s.chanAsk k own line back write
  | none => s.chanPass line write

def DramCmd.isOf (k own : Nat) (back : Bool) (x : DramCmd) : Bool := x.slot == k && x.own == own && x.back == back

/-- Every command of a slot for one of its lines has been issued. -/
def State.cmdsIssued (s : State) (k own : Nat) (back : Bool) : Bool :=
  s.mem.chans.all (fun e => !(e.2.offers.any (DramCmd.isOf k own back))
      && (e.2.reads ++ e.2.writes).all (fun x => !(x.isOf k own back) || x.issued))
    && s.mem.chans.any (fun e => (e.2.reads ++ e.2.writes).any (DramCmd.isOf k own back))

/-- The tag line is among the commands of a slot's read. -/
def State.tagAsked (s : State) (k own : Nat) : Bool :=
  s.mem.chans.any (fun e => e.2.reads.any (fun x => x.isOf k own false && x.line != own))

/-- The commands of a slot for one of its lines are done: the channels go on. -/
def State.cmdsDone (s : State) (k own : Nat) (back : Bool) : State :=
  forEach (fun c s =>
    let ch := s.chan c
    if (ch.reads ++ ch.writes).any (DramCmd.isOf k own back) then
      let f := fun (l : List DramCmd) => l.filter (fun x => !(x.isOf k own back))
      (s.setChan c { ch with reads := f ch.reads, writes := f ch.writes }.steer).chanGo c
    else s) (List.range 16) s

/-! ### Tag buffers (R268, R270) -/

def tagbufKey (line taddr : Nat) : Nat := sliceOf line * 16 + taddr / 128 % 16

def State.tagFind (s : State) (key taddr : Nat) : Option TagEnt :=
  (tget listDef s.cry.tagbuf key).find? (fun x => x.addr == taddr)

def State.tagDrop (s : State) (key taddr : Nat) : State :=
  { s with cry := { s.cry with
      tagbuf := tset listDef s.cry.tagbuf key ((tget listDef s.cry.tagbuf key).filter (fun x => x.addr != taddr)) } }

/-- The lines whose tags a tag line holds (R267). -/
def tagLines (line : Nat) : List Nat := (List.range 16).map (fun i => line / 16 * 16 + i)

/-- A line that has no home copy in waypoint or store. -/
def State.dramHome (s : State) (line : Nat) : Bool := (s.wayOf line).isNone && (s.frameCopy line).isNone

/-- The lines of a tag area's tag line: the window that has it, and the first line. -/
def State.tagOwner (s : State) (taddr : Nat) : Option Nat :=
  s.windows.findSome? (fun w =>
    let t := s.tagArea w
    if s.winInteg w && decide (t.1 ≤ taddr) && decide (taddr < t.1 + t.2) then
      some (s.winBase w * 512 + (taddr - t.1) / 128 * 16)
    else none)

/-- A read of a tag buffer entry checks its codes (R270): the entry as it then stands, none when it was uncorrectable, and its
lines at home in DRAM are poisoned. -/
def State.tagCheck (s : State) (key : Nat) (e : TagEnt) : Option TagEnt × State :=
  match e.ecc with
  | .clean => (some e, s)
  | .corr => (some { e with ecc := .clean }, s.err rCryErr 8 1 .c none e.addr)
  | .uncorr =>
    let s := s.setBit rCryErr 2
    let hit := (((s.tagOwner e.addr).map tagLines).getD []).filter s.dramHome
    let s := forEach (fun x s => (s.logEvent 8 3 .p none (lineAddr x)).poisonPut x) hit s
    (none, s.tagDrop key e.addr)

/-- Write a dirty tag line back to DRAM in the clear (R256, R268). -/
def State.tagFlush (s : State) (who : Option Nat) (own key : Nat) (e : TagEnt) : State :=
  if e.dirty then
    match s.tagCheck key e with
    | (some e, s) => (s.putArray (e.addr / 128) e.line).chanDo who own (e.addr / 128) true true
    | (none, s) => s
  else s

/-- Put a tag line at the head of its set; the least recently used of eight leaves. -/
def State.tagPut (s : State) (who : Option Nat) (own key : Nat) (e : TagEnt) : State :=
  let l := (tget listDef s.cry.tagbuf key).filter (fun x => x.addr != e.addr)
  let s := { s with cry := { s.cry with tagbuf := tset listDef s.cry.tagbuf key ((e :: l).take 8) } }
  match (e :: l).drop 8 with
  | x :: _ => s.tagFlush who own key x
  | [] => s

/-- The tag line that holds a line's tag: out of the buffer, or loaded into it; `raw` is what arrives in place of the array.
None when the entry in the buffer was uncorrectable. -/
def State.tagGet (s : State) (who : Option Nat) (line taddr : Nat) (raw : Option Line) : Option TagEnt × State :=
  let key := tagbufKey line taddr
  let load := fun (s : State) =>
    let e : TagEnt := ⟨taddr, raw.getD (s.arrayLine (taddr / 128)), false, .clean⟩
    (e, s.tagPut who line key e)
  match s.tagFind key taddr with
  | some e =>
    match s.tagCheck key e with
    | (some e, s) => (some e, s.tagPut who line key e)
    | (none, s) => (none, s)
  | none => let r := load s; (some r.1, r.2)

/-- Record the tag of a line that is written to DRAM; a tag line that is absent is read first. -/
def State.tagStore (s : State) (who : Option Nat) (w line : Nat) (tag : BitVec 64) : State :=
  let p := s.tagPlace w line
  let key := tagbufKey line p.1
  let fetch := fun (s : State) =>
    let s := s.chanDo who line (p.1 / 128) true false
    (⟨p.1, s.arrayLine (p.1 / 128), false, .clean⟩, s)
  let r : TagEnt × State :=
    match s.tagFind key p.1 with
    | some e =>
      match s.tagCheck key e with
      | (some e, s) => (e, s)
      | (none, s) => fetch s
    | none => fetch s
  let l := mergeLine r.1.line (natLine tag.toNat p.2 8) (byteMask p.2 8)
  r.2.tagPut who line key { r.1 with line := l, dirty := true }

/-- Write back every dirty tag line (R268). -/
def State.tagDrain (s : State) : State :=
  let s := forEach (fun (x : Nat × List TagEnt) s =>
    forEach (fun e s => s.tagFlush none (e.addr / 128) x.1 e) x.2 s) s.cry.tagbuf s
  { s with cry := { s.cry with tagbuf := s.cry.tagbuf.map (fun e => (e.1, e.2.map (fun x => { x with dirty := false }))) } }

/-! ### Lines of DRAM -/

/-- Write a line to DRAM, for a slot or outside the slots: encrypted, and tagged in an integrity window (R256 to R258,
R268). -/
def State.dramPut (s : State) (who : Option Nat) (line : Nat) (d : Line) : State :=
  let ks := s.lineSlot line
  let ct := s.encLine ks line d
  let s := (s.putArray line ct).chanDo who line line true true
  match s.integWin line with
  | some w => s.tagStore who w line (s.tagOf ks line 0 0 0x44 ct)
  | none => s

def State.dramWrite (s : State) (line : Nat) (d : Line) : State := s.dramPut none line d

/-- Issue the DRAM read of a slot, with the tag line's where the buffer does not have it (R240, R268). -/
def State.dramReadIssue (s : State) (k line : Nat) : State :=
  let s := s.chanAsk k line line false false
  match s.integWin line with
  | some w =>
    let a := (s.tagPlace w line).1
    if (s.tagFind (tagbufKey line a) a).isNone then s.chanAsk k line (a / 128) false false else s
  | none => s

/-- What a DRAM read of a line brings (R266, R270, R274): the plaintext, whether the tag check passed, and whether the tag
could be had at all. -/
structure DramGot where
  line : Line
  ok : Bool
  tagged : Bool
deriving DecidableEq, Repr

def State.dramGet (s : State) (line : Nat) (d : DramIn) : DramGot × State :=
  let ks := s.lineSlot line
  let ct := d.raw.getD (s.arrayLine line)
  let pt := s.decLine ks line ct
  match s.integWin line with
  | some w =>
    let p := s.tagPlace w line
    match s.tagGet none line p.1 d.rawTag with
    | (some e, s) => (⟨pt, BitVec.ofNat 64 (lineNat e.line p.2 8) == s.tagOf ks line 0 0 0x44 ct, true⟩, s)
    | (none, s) => (⟨pt, false, false⟩, s)
  | none => (⟨pt, true, true⟩, s)

end Sys2Proof.Machine
end

