-- ==== Sys2Proof/Machine/Rest.lean ====
section
/-! DEFINITION. The home copy of a line at rest (R159), the end of a vacancy (R226), paving (R271 to R273), and the drains that
bypass the home (R128, R170). -/
namespace Sys2Proof.Machine

/-! ### The home copy of a line at rest -/

/-- The home copy of a line as it lies in waypoint, frame or DRAM (R159), with clean reads. -/
structure HomeCopy where
  src : Src
  st : HState
  data : Line
deriving DecidableEq, Repr

def State.homeCopy (s : State) (line : Nat) : HomeCopy :=
  match s.wayOf line with
  | some k => ⟨.way k, (s.way k).hstate, (s.way k).data⟩
  | none =>
    match s.frameCopy line with
    | some (st, d) => ⟨.frame, st, d⟩
    | none => ⟨.dram, if s.poisonListed line then .hp else .hi, (s.dramGet line {}).1.line⟩

/-- A write ordered to a vacant region ends the vacancy (R226). -/
def State.vacWrite (s : State) (line : Nat) : State :=
  let r := parkRegion line
  if s.prk.vacant.contains r then
    ({ s with prk := { s.prk with vacant := serase r s.prk.vacant } }).err rPrkErr 6 3 .info none (lineAddr line)
  else s

/-! ### Paving (R271 to R273) -/

/-- The paver's writes of one 2 KiB group in a window: 16 lines of zeros and, in an integrity window, their tag line, which it
makes whole without a read (R273). -/
def State.paveGroup (s : State) (line : Nat) : State :=
  let ks := s.lineSlot line
  let s := forEach (fun x s => ((s.putArray x (s.encLine ks x 0)).chanPass x true).poisonFree x) (tagLines line) s
  match s.integWin line with
  | none => s
  | some w =>
    let a := (s.tagPlace w line).1
    let tags := (tagLines line).foldl (fun (l : Line) x =>
      let p := s.tagPlace w x
      mergeLine l (natLine (s.tagOf ks x 0 0 0x44 (s.encLine ks x 0)).toNat p.2 8) (byteMask p.2 8)) 0
    let key := tagbufKey line a
    let s := (s.putArray (a / 128) tags).chanPass (a / 128) true
    if (s.tagFind key a).isSome then s.tagPut none line key ⟨a, tags, false, .clean⟩ else s

/-- Every line of a granule is written as zero, and its bit is set. -/
def State.paveGranule (s : State) (g : Nat) : State :=
  let s := forEach (fun i s => s.paveGroup (g * 512 + i * 16)) (List.range 32) s
  { s with cry := { s.cry with paved := sinsert g s.cry.paved } }

/-! ### Drains without the home (R170) -/

/-- What a read of a line's frame with no error on the way comes to (R191 to R193). -/
inductive AtRest where
  | none
  | copy (st : HState) (d : Line)
  | integ
  | lost
deriving DecidableEq, Repr

def State.frameRest (s : State) (line : Nat) : AtRest :=
  let p := s.placeOf line
  if s.bypassed p.frame then .none
  else match readImage (s.image p.frame) {} with
    | none => .lost
    | some (img, _) =>
      match s.judge p line img with
      | .hit st => .copy st (s.frameLine img line)
      | .poison => .copy .hp 0
      | .integ _ => .integ
      | .miss _ => .none

/-- Bring a line to DRAM, or a parked line to its park frame; the frame, if it holds an older copy in the current epoch,
follows in HC (R170). -/
def State.drainLine (s : State) (line : Nat) (d : Line) : State :=
  match s.served line with
  | .park _ => s.writeLineFrame line .hd d
  | .lost => s
  | .normal =>
    let held := match s.frameRest line with
      | .copy _ _ => true
      | .integ => true
      | _ => false
    let s := s.dramWrite line d
    if held then s.writeLineFrame line .hc d else s

/-- The state of a line whose data DRAM now holds. -/
def HState.cleaned : HState → HState
  | .hd => .hc | .hld => .hlc | h => h

/-- Drain every dirty waypoint line (R128, R365). A line in HP enters the poison list. A line whose data is bad becomes HP
(R178). -/
def drainWays : List (Nat × Way) → State → State
  | [], s => s
  | (k, y) :: r, s =>
    let line := wayLine k y
    let s := if y.dataBad then s.err rWpcErr 4 1 .p none (lineAddr line) else s
    let st := if y.dataBad then HState.hp else y.hstate
    let s :=
      if st == .hp then
        match s.served line with
        | .park _ => s.writeLineFrame line .hp 0
        | _ => s.poisonPut line
      else s.drainLine line y.data
    let st := if (s.placeOf line).park.isSome then st else st.cleaned
    drainWays r (s.putWay k { y.setDirty false with hstate := st, dataBad := false })

def State.drainDirty (s : State) : State := drainWays s.dirtyWays s

/-- The line that a drained write merges into fails its check, or is poisoned where it lies: it is in HP (R269). -/
def State.drainHp (s : State) (line : Nat) : State :=
  match s.wayOf line with
  | some w => s.putWay w { (s.way w).setDirty true with hstate := .hp, data := 0, dataBad := false }
  | none =>
    match s.served line with
    | .park _ => s.writeLineFrame line .hp 0
    | _ =>
      let s := if s.frameRest line == .integ then s.writeLineFrame line .hp 0 else s
      s.poisonPut line

/-- What a partial write of the halt drain merges into: the line, none when there is nothing good to merge into (R116, R178,
R195, R197, R269). -/
def State.drainInto (s : State) (p line : Nat) : Option (HState × Line) × State :=
  let a := lineAddr line
  let fail := fun (s : State) => (none, (s.cryAlarm 2 (some p) (BitVec.ofNat 40 a)).drainHp line)
  match s.wayOf line with
  | some w =>
    let y := s.way w
    if y.dataBad then (none, (s.err rWpcErr 4 1 .p (some p) a).drainHp line) else (some (y.hstate, y.data), s)
  | none =>
    match s.frameRest line with
    | .copy st d => (some (st, d), s)
    | .integ => fail (s.err rStoErr 5 3 .p (some p) a)
    | .lost =>
      let f := (s.placeOf line).frame
      let g := match s.served line with
        | .park _ => s.frameAt (s.placeOf line) line .hp 0
        | _ => voidFrame
      let s := s.err rStoErr 5 2 .p (some p) a (stoDetail f 1)
      (none, (s.hardFault f g).poisonPut line)
    | .none =>
      if s.poisonListed line then (some (.hp, 0), s)
      else
        let g := s.dramGet line {}
        if g.1.ok then (some (.hi, g.1.line), g.2) else fail (g.2.logEvent 8 0x80 .p (some p) a)

/-- Put a drained line where it belongs: in its way, or in DRAM or its park frame. -/
def State.drainPut (s : State) (line : Nat) (d : Line) : State :=
  match s.wayOf line with
  | some w => s.putWay w { (s.way w).setDirty true with data := d, hstate := .hd, dataBad := false }
  | none => s.drainLine line d

/-- A lay-by entry of the memory region at a domain halt (R86, R128, R195, R218, R226, R272). -/
def State.layApply (s : State) (p : Nat) (e : LbEnt) : State :=
  let a := lineAddr e.line
  let whole := e.mask == BitVec.allOnes 128
  let s := s.vacWrite e.line
  let s := if e.ecc == .corr then s.logEvent 2 0x80 .c (some p) a else s
  if e.ecc == .uncorr then (s.logEvent 2 0x81 .p (some p) a).drainHp e.line
  else if s.served e.line == .lost then s.logEvent 3 0x80 .p (some p) a
  else
    let s := if s.unpaved e.line then s.paveGranule (granuleOf e.line) else s
    if whole then (s.poisonFree e.line).drainPut e.line e.data
    else
      let c := s.drainInto p e.line
      match c.1 with
      | some (st, d) =>
        if st == .hp then c.2.logEvent 3 0x80 .p (some p) a else c.2.drainPut e.line (mergeLine d e.data e.mask)
      | none => c.2

end Sys2Proof.Machine
end

