-- ==== Sys2Proof/Machine/Halt.lean ====
section
/-! DEFINITION. Answers in queue order (R140, R142), HALT_NOTICE, the domain halt (R128), the stop state (R341) and the
entry to shoulder mode (R339). -/
namespace Sys2Proof.Machine

/-! ### Answers -/

def queueOf (p tc : Nat) : Nat := p * 8 + tc

/-- Put the result of one part of an answer in its place (R140): part 2 is the upper line. -/
def Ans.fill (a : Ans) (part : Nat) (r : PartRes) : Ans :=
  if part = 2 then { a with hi := if a.hi.isSome then a.hi else some r }
  else { a with lo := if a.lo.isSome then a.lo else some r }

/-- Give an answer its result; a result that is there stays. -/
def State.answer (s : State) (q id part : Nat) (r : PartRes) : State :=
  let u := s.queue q
  s.setQueue q { u with answers := u.answers.map (fun a => if a.id == id then a.fill part r else a) }

/-- Turn an answer into a CMP or a DATA. -/
def State.answerKind (s : State) (q id : Nat) (isData : Bool) : State :=
  let u := s.queue q
  s.setQueue q { u with answers := u.answers.map (fun a => if a.id == id then { a with isData := isData } else a) }

def badRes (st : BitVec 4) : PartRes := ⟨st, grI, 0, 0⟩

/-- Every part of an answer is there. -/
def Ans.ready (a : Ans) : Bool := a.lo.isSome && (!a.split || a.hi.isSome)

/-- Give up an answer: the parts that are missing take this status. -/
def Ans.giveUp (st : BitVec 4) (a : Ans) : Ans :=
  let a := a.fill 0 (badRes st)
  if a.split then a.fill 2 (badRes st) else a

/-! ### HALT_NOTICE (R338) -/

def haltWord (block code : Nat) (cls : Cls) (shoulder : Bool) : Word :=
  BitVec.ofNat 32 (block + code * 2 ^ 8 + cls.code * 2 ^ 16 + if shoulder then 2 ^ 19 else 0)

def State.haltNotice (s : State) (block code : Nat) (cls : Cls) (shoulder : Bool) : State :=
  forEach (fun l s =>
    if (s.link l).state == .active then s.sendMsg l ⟨ctlHdr 0x3B 0 (haltWord block code cls shoulder), []⟩ else s)
    links16 s

/-! ### DMA channels -/

def State.dmaIrq (s : State) (n : Nat) : State :=
  let o := if n < 32 then rIntrDmaLo else rIntrDmaHi
  if s.bit o (n % 32) then s
  else
    let s := s.setBit o (n % 32)
    let s := if s.bit rIntrMask 2 then s.sendIntr 2 n else s
    let s := if s.bit rIntrMask 22 && s.mgt.i3c.canIbi then s.emit s.intrIbi else s
    s.driveAlert

/-- The transactions of a channel that are in flight bring it nothing more. -/
def State.dmaForget (s : State) (n : Nat) : State :=
  { s with home := { s.home with slots := s.home.slots.map (fun e => (e.1, e.2.map (fun (t : Slot) =>
    if t.org == .dma n || t.org == .dmaFetch n || t.org == .dmaBack n then { t with org := .dmaGone n } else t))) } }

/-- A channel enters ERROR (R286, R287): status and reason are recorded and its interrupt is raised. -/
def State.dmaError (s : State) (n : Nat) (status : BitVec 3) (reason : BitVec 4) : State :=
  let c := s.dch n
  let s := s.dmaForget n
  let s := s.setDch n { c with
    state := .error, status := status, reason := reason, cur := none, descs := [], tokens := 0, fetched := none,
    fetchBusy := false, prog := { Prog.init with halted := true }
    lastTag := (c.cur.map (·.tag)).getD c.lastTag
    doneCnt := if c.cur.isSome then c.doneCnt + 1 else c.doneCnt }
  let s := s.err rDmaErr 9 1 .info (some n) 0
  if s.bit (rDmaCtrl n) 1 then s.dmaIrq n else s

def ChanState.active : ChanState → Bool
  | .run => true | .stopping => true | _ => false

/-- Channels that run end with status HALTED (R287). -/
def State.dmaHalt (s : State) : State :=
  forEach (fun n s => if (s.dch n).state.active then s.dmaError n 4 0 else s) (List.range 64) s

/-! ### Reservations (R148) -/

def State.cancelAll (s : State) : State := { s with ports := s.ports.map (fun e => (e.1, { e.2 with rsv := none })) }

def State.dropReservations (s : State) : State := s.cancelAll.trimPorts

/-! ### The domain halt (R128) -/

/-- Queued requests that a halt answers: every one but FENCE and control space requests. -/
def haltable (e : QEnt) : Bool := e.op != opFence && regionOf e.addr != .control

/-- Answer the requests of a queue that are not yet registered. -/
def State.haltQueue (s : State) (q : Nat) (hit : QEnt → Bool) : State :=
  let u := s.queue q
  let out := u.ents.filter hit
  let s := s.setQueue q { u with ents := u.ents.filter (fun e => !(hit e)) }
  forEach (fun e s => s.answer q e.id e.part (badRes stHalted)) out s

def State.haltQueues (s : State) (hit : QEnt → Bool) : State :=
  forEach (fun q s => s.haltQueue q hit) (s.queues.map Prod.fst) s

/-- A CMP that answers a request outside any queue order (R88). -/
def State.sendCmp (s : State) (p : Nat) (tc : Nat) (tag : BitVec 12) (st : BitVec 4) : State :=
  let l := p / 64
  if (s.link l).state.alive then s.sendMsg l ⟨rspHdr opCmp (p % 64) tc tag st grI, []⟩ else s

/-- The lay-by of a port at a halt: memory-region entries drain to DRAM, a WB_FULL is answered HALTED, conditional
entries go with their WR_COND, device-type entries stay (log entry 21). -/
def haltLayby (p : Nat) : List LbEnt → State → State
  | [], s => s
  | e :: r, s =>
    let s :=
      if e.op == opWbFull then s.sendCmp p e.tc.toNat e.tag stHalted
      else if e.op == opWrCond then s
      else s.layApply p e
    haltLayby p r s

def State.haltPort (s : State) (p : Nat) : State :=
  let u := s.port p
  let out := u.layby.filter (fun e => e.dest == .mem && !e.issuing)
  let s := s.setPort p { u with
    layby := u.layby.filter (fun e => !(e.dest == .mem && !e.issuing)), released := u.released + out.length }
  haltLayby p out s

def State.portsSeen (s : State) : List Nat := s.ports.map Prod.fst

/-- Remove an issuing entry of a port's lay-by; the other part of a split write has the same request. -/
def Port.release (u : Port) (id : Nat) : Port :=
  if u.layby.any (fun e => e.id == id && e.issuing) then
    { u with layby := u.layby.filter (fun e => !(e.id == id && e.issuing)), released := u.released + 1 }
  else u

/-- What is left of a transaction that ends with HALTED: the snoop answers, the DRAM read and the acknowledgments that it
still owes or waits for. -/
def State.haltRest (s : State) (k : Nat) (t : Slot) : Slot :=
  { t with
    phase := .place, granted := true, todo := [], fuse := .no, frame := none, snpRest := 0
    dram := if t.dram == .parked then .no else t.dram
    snpOut := (List.range 16).foldl (fun m l =>
      if (s.link l).snpTags.any (fun e => e.1 == k) then m ||| BitVec.ofNat 16 (2 ^ l) else m) 0
    org := match t.org with
      | .port p tc => .port p tc
      | _ => .self }

/-- Complete a transaction that waits on the cause with HALTED (R128 step 2). -/
def State.haltSlot (s : State) (k : Nat) (t : Slot) : State :=
  let s := s.setSlot k (some (s.haltRest k t))
  match t.org with
  | .port p tc =>
    let s := s.setPort p { s.port p with parked := (s.port p).parked.filter (· != k) }
    match t.kind with
    | .wrFull | .wrPtl => (s.setPort p ((s.port p).release t.ansId)).logEvent 3 0x83 .p (some p) (lineAddr t.line)
    | .wbFull => (s.setPort p ((s.port p).release t.ansId)).sendCmp p tc t.tag stHalted
    | .wrCond => (s.setPort p ((s.port p).release t.ansId)).answer (queueOf p tc) t.ansId t.part (badRes stHalted)
    | .prefetch => s
    | _ => s.answer (queueOf p tc) t.ansId t.part (badRes stHalted)
  | .maint => { s with wp := { s.wp with maintBusy := false, maintResult := 2 } }
  | _ =>
    match t.kind, s.fent t.fkey with
    | .regionRecall, some f => s.setFent t.fkey (some { f with recalling := false })
    | _, _ => s

/-- Every transaction that waits on the cause. -/
def State.haltWaits (s : State) (waits : Slot → Bool) : State :=
  forEach (fun (e : Nat × Option Slot) s =>
    match e.2 with
    | some t => if waits t then s.haltSlot e.1 t else s
    | none => s) s.home.slots s

/-- The requests, buffers and caches of the halt: steps 1 to 3. -/
def State.haltBody (s : State) (waits : Slot → Bool) : State :=
  let s := { s with saf := { s.saf with safe := .halted, drainBusy := false } }
  let s := (s.haltQueues haltable).haltWaits waits
  let s := forEach (fun p s => s.haltPort p) s.portsSeen s
  let s := (s.drainDirty).tagDrain
  let s := { s with mem := { s.mem with overflow := false } }
  s.dmaHalt.dropReservations

/-- Halt the coherent domain; the cause's own class D entry is logged by the caller before (R128). A device that is
halted or stopped stays as it is. -/
def State.haltDomain (s : State) (block code : Nat) (waits : Slot → Bool) : State :=
  match s.saf.safe with
  | .halted => s
  | .stop => s
  | _ => ((s.setBit rHomErr 2).haltBody waits).haltNotice block code .d false

/-- The halt that a full poison list causes (R198). -/
def State.haltFull (s : State) : State :=
  if s.mem.overflow then ({ s with mem := { s.mem with overflow := false } }).haltDomain 7 0x80 (fun _ => false) else s

/-! ### The stop state (R341) -/

/-- Abandon the work in flight: every owed answer is HALTED. -/
def State.abandon (s : State) : State :=
  let s := { s with queues := s.queues.map (fun (e : Nat × Queue) =>
    (e.1, { e.2 with ents := [], answers := e.2.answers.map (Ans.giveUp stHalted) })) }
  let s := { s with ports := s.ports.map (fun (e : Nat × Port) =>
    (e.1, { e.2 with layby := [], missToken := none, parked := [], pfq := [], fence := none, rsv := none })) }
  let s := s.trimPorts
  let s := { s with home := { s.home with slots := [], chains := [], heldSet := [], recovering := [], recallDue := [] } }
  s.dmaHalt

/-- Enter the stop state for a class X cause that is logged by the caller. -/
def State.stopState (s : State) (block code : Nat) : State :=
  if s.saf.safe == .stop then s
  else
    let s := { s with saf := { s.saf with safe := .stop, drainBusy := false } }
    (s.haltNotice block code .x false).abandon

/-! ### Entry to shoulder mode after boot (R339) -/

def State.setShoulder (s : State) (cause : Nat) : State :=
  { s with
    saf := { s.saf with safe := .shoulder, drainBusy := true, overrunRun := 0 }
    mgt := { s.mgt with shoulder := true, shoulderCause := cause } }

/-- Filter entries that are in use. -/
def State.filterValid (s : State) : List (Nat × FEnt) :=
  s.home.filter.filterMap (fun e => e.2.map (fun v => (e.1, v)))

/-- Shoulder mode after boot: admission is held and every valid region is due for a recall. A Halted device stays
Halted (R338). -/
def State.enterShoulder (s : State) (cause : Nat) : State :=
  match s.saf.safe with
  | .normal =>
    let s := s.setShoulder cause
    { s with home := { s.home with recallDue := s.filterValid.map Prod.fst } }
  | _ => s

/-! ### Voted fields without a majority (R335) -/

/-- Every voted field of the registers that a command reads has a majority. -/
def State.votesOk (s : State) (offs : List Nat) : Bool := offs.all (fun o => votesHold o (s.reg3 o))

/-- The fatal vote: logged, and the stop state entered. -/
def State.voteFatal (s : State) : State := (s.err rSafErr 11 3 .x none 0).stopState 11 4

/-- Registers that hold written values and that `used` selects. -/
def State.votedUsed (s : State) (used : Nat → Bool) : List Nat := (s.csr.map Prod.fst).filter used

/-- A use of the voted fields that `used` selects: when one has no majority the stop state is entered first and no
value is used (R335). -/
def State.guardVotes (s : State) (used : Nat → Bool) : State :=
  if s.votesOk (s.votedUsed used) then s else s.voteFatal

/-- Do something that uses the voted fields that `used` selects, unless one has no majority. -/
def State.withVotes (s : State) (used : Nat → Bool) (f : State → State) : State :=
  let g := s.guardVotes used
  if g.saf.safe == .stop then g else f g

/-- Windows, domain masks and port domains (the enqueue checks, R264). -/
def usesDomains (o : Nat) : Bool := decide (0x80100 ≤ o) && decide (o < 0x80E00)

/-- What the home reads: snoop timeout, windows and key slots, dirty quota, segment fault limit, retirement threshold. -/
def usesHome (o : Nat) : Bool :=
  o == rHomCtrl || o == rWpcCtrl || o == rCryCtrl || o == rStoCtrl || o == rRetireThresh
    || (decide (0x80100 ≤ o) && decide (o < 0x80500))

/-- Windows and key slot enables, which a configuration write is judged by (R260, R265). -/
def usesConfig (o : Nat) : Bool := o == rCryCtrl || (decide (0x80100 ≤ o) && decide (o < 0x80500))

/-- LNK_CTRL of every link. -/
def usesLinks (o : Nat) : Bool := decide (0x11000 ≤ o) && decide (o < 0x12000)

end Sys2Proof.Machine
end

