-- ==== Sys2Proof/Machine/Slots.lean ====
section
/-! DEFINITION. Transaction slots and their pools (R24), the open-line table (R103), the junction filter (R104 to R106),
snoops (R109 to R112), reservations (R147, R148), and what a transaction delivers to whoever asked (R115, R142). -/
namespace Sys2Proof.Machine

/-! ### Pools (R24) -/

inductive Pool where
  | demand | write | prefetch | snoop | dma | maint
deriving DecidableEq, Repr

/-- First slot number and size of a pool in a slice. -/
def Pool.range : Pool → Nat × Nat
  | .demand => (0, 192) | .write => (192, 128) | .prefetch => (320, 64) | .snoop => (384, 64) | .dma => (448, 32)
  | .maint => (480, 32)

def State.poolFree (s : State) (slice : Nat) (p : Pool) : List Nat :=
  ((List.range p.range.2).map (fun i => slice * 512 + p.range.1 + i)).filter (fun k => (s.slot k).isNone)

/-- Take a free slot of a pool; which one is not specified (R24). -/
def State.takeSlot (s : State) (slice : Nat) (p : Pool) : Option (Nat × State) :=
  match s.poolFree slice p with
  | [] => none
  | k :: r =>
    let f := s.fresh
    some ((k :: r).getD (f.1 % (r.length + 1)) k, f.2)

def State.slotList (s : State) : List (Nat × Slot) := s.home.slots.filterMap (fun e => e.2.map (fun t => (e.1, t)))

def State.updSlot (s : State) (k : Nat) (f : Slot → Slot) : State :=
  match s.slot k with
  | some t => s.setSlot k (some (f t))
  | none => s

/-- A slot with no request in it. -/
def Slot.blank (kind : TxKind) (org : Origin) (line : Nat) : Slot where
  kind := kind
  org := org
  line := line
  ansId := 0
  part := 0
  tag := 0
  priv := 0
  addr := BitVec.ofNat 40 (lineAddr line)
  size := 128
  data := 0
  mask := BitVec.allOnes 128
  atomOp := 0
  atomSize := 0
  crossed := false
  regNo := 0
  order := 0
  putNo := 0
  phase := .lookup
  fuse := .no
  frameKey := 0
  frameNo := 0
  frame := none
  refetch := false
  hs := .hi
  src := .dram
  copy := none
  poisoned := false
  snpOp := 0
  snpOut := 0
  snpRest := 0
  got := none
  gotDirty := false
  keptS := false
  forwarded := false
  deadMet := false
  dram := .no
  victims := []
  wrImg := none
  todo := []
  forSlot := none
  condOk := false
  granted := false
  badData := false
  cands := []
  buf := []
  lines := []
  fkey := 0
  agent := 0
  aux := 0

def Slot.port (t : Slot) : Option Nat :=
  match t.org with
  | .port p _ => some p
  | .dma n => some n
  | .dmaFetch n => some n
  | .dmaBack n => some n
  | .dmaGone n => some n
  | _ => none

/-- The port that a log entry names: a DMA channel or a port, none for the device's own work. -/
def Slot.logPort (t : Slot) : Option Nat := t.port

/-- Against whom an error of the slot's frame read is logged: the read is one by a request (R196) in its lookup, a
prefetch's is not. -/
def Slot.finder (t : Slot) : Option Nat := if t.phase == .lookup && t.kind != .prefetch then t.logPort else none

/-- The attributes of an occurrence of a slot's request (R344). -/
def Slot.attr (t : Slot) : Attr :=
  match t.org with
  | .port p tc => { req := some (p, t.priv.toNat, tc), addr := some t.addr.toNat }
  | _ => { addr := some t.addr.toNat }

/-- Slots that a port's requests and lay-by drains hold (R79). -/
def State.portSlots (s : State) (p : Nat) : Nat :=
  (s.slotList.filter (fun e => e.2.kind != .prefetch && match e.2.org with | .port q _ => q == p | _ => false)).length

/-! ### The open-line table (R103, R123) -/

/-- The slot's transaction is ordered and has work left. -/
def Slot.busy (t : Slot) : Bool := t.phase != .chained && t.phase != .regionWait && t.phase != .closing

/-- The transaction is not ordered yet (R102, R126, R272). -/
def Slot.unordered (t : Slot) : Bool := t.phase == .chained || t.phase == .regionWait || t.phase == .pave

/-- The transaction is open at the home: a forwarding answer closes it, whatever is left to write (R118). -/
def Slot.isOpen (t : Slot) : Bool := t.busy && !(t.phase == .place && t.forwarded)

/-- A transaction on the line is open. -/
def State.txOpen (s : State) (line : Nat) : Bool := s.slotList.any (fun e => e.2.line == line && e.2.isOpen)

/-- The dirty victim of a line that waits for its acknowledgment, in a slot that serves another line. -/
def State.victimOf (s : State) (line : Nat) : Option Victim :=
  s.slotList.findSome? (fun e => if e.2.line == line then none else e.2.victims.find? (fun v => v.line == line))

/-- A transaction on the line has work left, or its victim write is in flight. -/
def State.lineOpen (s : State) (line : Nat) : Bool :=
  s.slotList.any (fun e => e.2.line == line && e.2.busy) || (s.victimOf line).isSome

/-- Registered slots whose line lies in a region, chained ones included: the entry's `open` (R104). -/
def State.regionOpen (s : State) (region : Nat) : Nat :=
  (s.slotList.filter (fun e => regionNo e.2.line == region)).length

/-- A slot works for this one and has not finished. -/
def State.child (s : State) (k : Nat) : Bool := s.slotList.any (fun e => e.2.forSlot == some k)

/-! ### Junction filter -/

def State.filterWays (s : State) (region : Nat) : List (Nat × Option FEnt) :=
  (List.range 16).map (fun w => (filterKey region w, s.fent (filterKey region w)))

def State.filterFind (s : State) (region : Nat) : Option (Nat × FEnt) :=
  (s.filterWays region).findSome? (fun e =>
    match e.2 with
    | some f => if f.region == region then some (e.1, f) else none
    | none => none)

/-- Make an entry the youngest of its set. -/
def State.filterTouch (s : State) (region : Nat) : State :=
  match s.filterFind region with
  | none => s
  | some (k, f) =>
    let s := forEach (fun (e : Nat × Option FEnt) s =>
      match e.2 with
      | some g => if g.lru < f.lru then s.setFent e.1 (some { g with lru := g.lru + 1 }) else s
      | none => s) (s.filterWays region) s
    s.setFent k (some { f with lru := 0 })

def State.filterAge (s : State) (region : Nat) : State :=
  forEach (fun (e : Nat × Option FEnt) s =>
    match e.2 with
    | some g => s.setFent e.1 (some { g with lru := min 15 (g.lru + 1) })
    | none => s) (s.filterWays region) s

def State.filterNew (s : State) (k region : Nat) : State :=
  ((s.setFent k none).filterAge region).setFent k (some ⟨region, 0, none, false, 0⟩)
    |>.count 0x14 { addr := some (region * 4096) }

/-- What a request that may be granted a line finds in the filter (R105, R106). -/
inductive FilterGet where
  | have (s : State)
  | toRecall (key : Nat)
  | busy

/-- The oldest of some entries. -/
def oldest : List (Nat × FEnt) → Option (Nat × FEnt)
  | [] => none
  | e :: r =>
    match oldest r with
    | none => some e
    | some f => if e.2.lru ≥ f.2.lru then some e else some f

def State.filterGet (s : State) (region : Nat) : FilterGet :=
  match s.filterFind region with
  | some _ => .have (s.filterTouch region)
  | none =>
    match (s.filterWays region).find? (fun e => e.2.isNone) with
    | some e => .have (s.filterNew e.1 region)
    | none =>
      let idle := (s.filterWays region).filterMap (fun e =>
        match e.2 with
        | some f => if s.regionOpen f.region == 0 && !f.recalling then some (e.1, f) else none
        | none => none)
      match oldest (idle.filter (fun e => e.2.presence == 0)) with
      | some e => .have (s.filterNew e.1 region)
      | none =>
        match oldest idle with
        | some e => .toRecall e.1
        | none => .busy

def State.presence (s : State) (region : Nat) : BitVec 16 := ((s.filterFind region).map (·.2.presence)).getD 0

def State.inPresence (s : State) (region l : Nat) : Bool := (s.presence region).getLsbD l

/-- A region under recall, or awaiting or under dead-agent recovery (R107, R127). -/
def State.regionBusy (s : State) (region : Nat) : Bool :=
  match s.filterFind region with
  | some (k, f) => f.recalling || s.home.recovering.any (fun e => e.2 == k)
  | none => false

/-- Links with an effective caching role, and dead ones whose regions are not yet recovered (R111, R127). -/
def State.cachingMask (s : State) : BitVec 16 :=
  links16.foldl (fun m l =>
    if (s.link l).roleCaching || s.home.recovering.any (fun e => e.1 == l) then m ||| BitVec.ofNat 16 (2 ^ l) else m) 0

def linkBit (l : Nat) : BitVec 16 := BitVec.ofNat 16 (2 ^ l)

def maskLinks (m : BitVec 16) : List Nat := links16.filter (fun l => m.getLsbD l)

/-- The snoop mask of a transaction (R111). -/
def State.snoopMask (s : State) (t : Slot) : BitVec 16 :=
  let m := s.presence (regionNo t.line) &&& s.cachingMask
  match t.kind, t.org with
  | .rdShared, .port p _ => m &&& ~~~ (linkBit (p / 64))
  | .rdUnique, .port p _ => m &&& ~~~ (linkBit (p / 64))
  | .upgrade, .port p _ => m &&& ~~~ (linkBit (p / 64))
  | _, _ => m

/-! ### Snoops -/

/-- The domain class: the latched one, compact while none is latched (R108). -/
def State.wide (s : State) : Bool := s.home.wide.getD false

/-- The stop of a home slice and of a link on the ring road (R109). -/
def homeStop (slice : Nat) : Nat := 3 * slice
def linkStop (l : Nat) : Nat := 3 * (l / 2) + 1 + l % 2

/-- A message from stop `a` to stop `b` goes clockwise: the target lies within 12 stops that way (R109). -/
def ringCw (a b : Nat) : Bool := decide ((b + 24 - a) % 24 ≤ 12)

/-- A stop inserts a message of a source: its reservation is used, and the stop's roundabout moves on (R110). -/
def State.ringInsert (s : State) (stop source : Nat) (cw : Bool) (dests : List Nat) (beats : Nat) : State :=
  let s := s.setArb (800 + stop) (rbNext 4 source)
  { s with ring := serase stop s.ring }.emit (.ring stop source cw dests beats)

/-- At most one copy in each direction (R109). -/
def State.ringSpread (s : State) (stop source : Nat) (dests : List Nat) (beats : Nat) : State :=
  forEach (fun cw s =>
    match dests.filter (fun d => ringCw stop d == cw) with
    | [] => s
    | ds => s.ringInsert stop source cw ds beats) [true, false] s

/-- Messages that are ready at one stop: source, target stops and beats; the stop's roundabout takes them in turn (R110). -/
def ringAll (stop : Nat) : Nat → List (Nat × List Nat × Nat) → State → State
  | 0, _, s => s
  | n + 1, ms, s =>
    match rbWinner 4 (s.arb (800 + stop)) (ms.map (fun m => (m.1, 0))) with
    | none => s
    | some w =>
      match ms.find? (fun m => m.1 == w.1) with
      | some m => ringAll stop n (ms.filter (· != m)) (s.ringSpread stop m.1 m.2.1 m.2.2)
      | none => s

/-- Send a snoop of slot `k` to one link. -/
def State.snoopOne (s : State) (k : Nat) (op : BitVec 6) (addr fwd l : Nat) : State :=
  let u := s.link l
  let s := s.setLink l { u with snpTags := u.snpTags ++ [(k, false)] }
  let s := s.count 0x17 { addr := some addr }
  s.sendMsg l ⟨snpHdr op k addr fwd, []⟩

/-- The links of a mask that can be snooped; the others count as answered SNP_ACK with state I (R127). -/
def State.liveMask (s : State) (m : BitVec 16) : BitVec 16 :=
  links16.foldl (fun n l => if m.getLsbD l && (s.link l).state.alive then n ||| linkBit l else n) 0

/-- Record that a lent line has been snooped from a link since its last grant (R121). -/
def State.markSnooped (s : State) (line : Nat) (ls : List Nat) : State :=
  { s with home := { s.home with
      snooped := ls.foldl (fun z l => if z.contains (l, line) then z else z ++ [(l, line)]) s.home.snooped } }

def Slot.fwdPort (t : Slot) : Nat :=
  match t.org with
  | .port p _ => p
  | _ => 0

/-- Send the snoop of a slot to a mask. -/
def State.snoopSend (s : State) (k : Nat) (t : Slot) (m : BitVec 16) : State :=
  let live := s.liveMask m
  let t := { t with snpOut := t.snpOut ||| live, deadMet := t.deadMet || decide (m &&& ~~~ live ≠ 0) }
  let s := s.setSlot k (some t)
  let s := if t.hs.lent then s.markSnooped t.line (maskLinks live) else s
  let s := s.ringSpread (homeStop (sliceOf t.line)) 2 ((maskLinks live).map linkStop) 1
  forEach (fun l s => s.snoopOne k t.snpOp (lineAddr t.line) t.fwdPort l) (maskLinks live) s

/-- Start the snoop of a slot by domain class (R111): a forwarding snoop of a wide domain goes to the owner first. -/
def State.snoopStart (s : State) (k : Nat) (t : Slot) (op : BitVec 6) (m : BitVec 16) : State :=
  let t := { t with phase := .gather, snpOp := op }
  let owner := ((s.filterFind (regionNo t.line)).bind (·.2.owner)).filter (fun l => m.getLsbD l && (s.liveMask m).getLsbD l)
  match owner with
  | some l =>
    if s.wide && (op == opFwdShared || op == opFwdUnique) then
      s.snoopSend k { t with snpRest := m &&& ~~~ (linkBit l) } (linkBit l)
    else s.snoopSend k t m
  | none => s.snoopSend k t m

/-! ### Reservations (R147, R148) -/

/-- Those of every other port, on the line of a slot. -/
def State.cancelOthers (s : State) (t : Slot) : State :=
  s.cancelRsv (lineAddr t.line) 128 t.order (fun q =>
    match t.org with
    | .port p _ => q != p
    | _ => true)

/-- Those that the bytes of a write of a slot touch. -/
def State.cancelWritten (s : State) (t : Slot) : State :=
  s.cancelRsv t.addr.toNat t.size t.order (fun q =>
    match t.org with
    | .port p _ => q != p
    | _ => true)

/-! ### Grants (R105) -/

/-- A grant of S, E or M to a link: presence, owner, the reservations of others, and the mark of R121; with a grant of E or M
an EVICT_CLEAN that is being carried out changes the line's state no more (log entry 44). -/
def State.grant (s : State) (t : Slot) (st : BitVec 2) : State :=
  match t.org with
  | .port p _ =>
    let l := p / 64
    let region := regionNo t.line
    let s :=
      match s.filterFind region with
      | some (k, f) =>
        let f := { f with presence := f.presence ||| linkBit l }
        let s := s.setFent k (some (if st == grS then f else { f with owner := some l }))
        if (s.link l).detaching && !(s.home.recallDue.contains k) then
          { s with home := { s.home with recallDue := s.home.recallDue ++ [k] } }
        else s
      | none => s
    if st == grS then s
    else
      let s := forEach (fun (e : Nat × Slot) s =>
        if e.2.kind == .evictClean && e.2.line == t.line && e.2.busy then s.setSlot e.1 (some { e.2 with crossed := true })
        else s) s.slotList s
      ({ s with home := { s.home with snooped := s.home.snooped.filter (· != (l, t.line)) } }).cancelOthers t
  | _ => s

/-! ### What a transaction delivers -/

/-- The line number of a DMA transaction within its descriptor (R281, R283). -/
def DmaCh.lineNo (c : DmaCh) (t : Slot) : Nat :=
  match c.cur with
  | some d =>
    let base := if d.op == 1 && t.kind != .rdOnce then d.dst else d.src
    t.line - lineOf base
  | none => 0

/-- What a DMA transaction brings its channel (R279, R283, R285, R287). -/
def State.dmaResult (s : State) (t : Slot) (status : BitVec 4) (d : Line) : State :=
  match t.org with
  | .dma n =>
    let c := s.dch n
    let i := c.lineNo t
    let g := c.prog
    let g := { g with
      inFlight := g.inFlight - 1
      badReason := if status == stBusErr then 5 else g.badReason
      halted := g.halted || status == stHalted
      poison := g.poison || status == stPoison }
    let g :=
      if t.kind == .rdOnce then
        { g with
          buf := tset noneDef g.buf i (some d)
          poisonLines := if status == stPoison then sinsert i g.poisonLines else g.poisonLines }
      else { g with doneLines := sinsert i g.doneLines }
    s.setDch n { c with prog := g }
  | .dmaFetch n =>
    let c := s.dch n
    s.setDch n { c with fetchBusy := false, fetched := some (if status == stOk then some d else none, c.fetchAddr) }
  | .dmaBack n =>
    let c := s.dch n
    let r := if status == stBusErr then 4 else if status == stPoison then 3 else if status == stHalted then 5 else 2
    s.setDch n { c with prog := { c.prog with readBack := r } }
  | _ => s

/-- Completion of a maintenance operation that a register started (R186). -/
def State.maintDone (s : State) (result : Nat) : State :=
  { s with wp := { s.wp with maintBusy := false, maintResult := BitVec.ofNat 3 result } }

/-- A transaction that is ordered and may still send a snoop to a link: its frame read has not ended, or the second part
of its snoop mask has not been sent (R111). -/
def State.maySnoop (s : State) (l : Nat) (t : Slot) : Bool :=
  ((t.phase == .lookup || t.phase == .pave) && t.kind != .prefetch && t.kind != .evictClean && t.kind != .regionRecall
      && t.kind != .parkMove && t.kind != .writeBack && (s.snoopMask t).getLsbD l)
    || (t.phase == .gather && t.snpRest.getLsbD l)

/-- A snoop ordered before an answer's transaction still waits to leave on the link, or may still be sent there (R137). -/
def State.snoopsFirst (s : State) (l order : Nat) : Bool :=
  s.slotList.any (fun e => decide (e.2.order < order) && e.2.isOpen && s.maySnoop l e.2)
  || (s.link l).txWait.any (fun m => m.cls == 1 &&
    match s.slot (m.hdr.extractLsb' 20 12).toNat with
    | some t => decide (t.order < order)
    | none => false)

/-- The CMP of a WB_FULL leaves: unanswered snoops of its line to the link are marked (R122). -/
def State.wbLeave (s : State) (l : Nat) (m : Msg) : State :=
  let u := s.link l
  let lines := (u.wbOpen.filter (fun w => m.answers w.1)).map Prod.snd
  let s := s.setLink l { u with snpTags := u.snpTags.map (fun e =>
    match s.slot e.1 with
    | some t => if lines.contains t.line then (e.1, true) else e
    | none => e) }
  s.sendMsg l m

/-- Send the CMPs of WB_FULLs that earlier snoops and tolls let go, in their order (R88, R137). -/
def wbSend (l : Nat) : List (Nat × Msg) → State → State
  | [], s => s
  | w :: r, s =>
    let k := s.link l
    if s.snoopsFirst l w.1 || !(k.canSend w.2) || !(k.classClear w.2) then
      wbSend l r ((s.setLink l { k with wbDone := k.wbDone ++ [w] }).wakeLink l)
    else wbSend l r (s.wbLeave l w.2)

def State.wbFlush (s : State) (l : Nat) : State :=
  wbSend l (s.link l).wbDone (s.setLink l { s.link l with wbDone := [] })

/-- CMP of a WB_FULL that the home has ordered (R88, R137). -/
def State.wbCmp (s : State) (p tc order : Nat) (tag : BitVec 12) (st : BitVec 4) : State :=
  let l := p / 64
  let k := s.link l
  if k.state.alive then
    (s.setLink l { k with wbDone := k.wbDone ++ [(order, ⟨rspHdr opCmp (p % 64) tc tag st grI, []⟩)] }).wbFlush l
  else s

/-- Deliver a status, a state and a line to whoever asked. A posted write was answered before (R88). -/
def State.reply (s : State) (t : Slot) (isData : Bool) (status : BitVec 4) (st : BitVec 2) (d : Line) : State :=
  match t.org with
  | .port p tc =>
    match t.kind with
    | .wrFull => s
    | .wrPtl => s
    | .prefetch => s
    | .wbFull => s.wbCmp p tc t.order t.tag status
    | _ =>
      let q := queueOf p tc
      let s := if t.kind == .wrCond then s.setPort p ((s.port p).release t.ansId) else s
      (s.answerKind q t.ansId isData).answer q t.ansId t.part ⟨status, st, d, t.order⟩
  | .dma _ => s.dmaResult t status d
  | .dmaFetch _ => s.dmaResult t status d
  | .dmaBack _ => s.dmaResult t status d
  | .dmaGone _ => s
  | .maint => s
  | .self => s

/-- The opcode answers with DATA (R115): upgrades and writes otherwise with CMP. -/
def TxKind.dataKind : TxKind → Bool
  | .rdShared => true | .rdUnique => true | .rdOnce => true | .rdRsv => true | .atomic => true | .upgrade => true
  | _ => false

/-- Refuse a transaction: an RD_RSV loses the reservation that it set (R147). -/
def State.replyBad (s : State) (t : Slot) (status : BitVec 4) : State :=
  let s :=
    match t.kind, t.org with
    | .rdRsv, .port p _ =>
      if (s.port p).rsvOrder == t.order then s.setPort p { s.port p with rsv := none } else s
    | _, _ => s
  s.reply t t.kind.dataKind status grI 0

end Sys2Proof.Machine
end

