-- ==== Sys2Proof/Machine/Place.lean ====
section
/-! DEFINITION. Placement: the frame interlock (R163), victims of a frame write (R161, R162), allocation of waypoint ways
(R165 to R167), write-backs (R169) and the work that a transaction still has to do after its answer. -/
namespace Sys2Proof.Machine

/-! ### The frame interlock (R163) -/

/-- Another slot has the frame open. -/
def State.frameBusy (s : State) (k f : Nat) : Bool :=
  s.slotList.any (fun e => e.1 != k && e.2.frameKey == f && (e.2.fuse == .reading || e.2.fuse == .opened))

/-- No slot has waited longer for the frame. -/
def State.frameTurn (s : State) (k f no : Nat) : Bool :=
  s.slotList.all (fun e => e.1 == k || e.2.frameKey != f || e.2.fuse != .waiting || decide (no ≤ e.2.frameNo))

def State.newOrder (s : State) : Nat × State := (s.order, { s with order := s.order + 1 })

/-- Ask for the frame of the slot's line; reads wait in order of arrival. -/
def State.frameAsk (s : State) (k : Nat) (t : Slot) : State :=
  let o := s.newOrder
  o.2.setSlot k (some { t with
    fuse := .waiting, frameKey := (s.placeOf t.line).frame, frameNo := o.1, frame := none })

/-- Open the frame and start its read, when it is free. -/
def State.frameTry (s : State) (k : Nat) (t : Slot) : Option State :=
  let f := (s.placeOf t.line).frame
  if s.frameBusy k f || !(s.frameTurn k f t.frameNo) then none
  else some (s.setSlot k (some { t with fuse := .reading, frameKey := f }))

/-- Close the slot's frame. -/
def State.frameClose (s : State) (k : Nat) : State := s.updSlot k (fun t => { t with fuse := .no, frame := none })

/-! ### Poison -/

/-- The halt that a full poison list has caused, if any (R198); the drain of shoulder mode takes it at its end (log entry 21). -/
def State.haltDue (s : State) : State := if s.saf.drainBusy && s.slotList.isEmpty then s else s.haltFull

/-- A line must enter the poison list; the full list halts the domain (R198). -/
def State.poisonIn (s : State) (line : Nat) : State := ((s.cancelLine line).poisonPut line).haltDue

/-! ### Ways -/

/-- Store a line in a way; the lock of the way stays (R175). A line that becomes dirty takes the current stamp. -/
def State.install (s : State) (key line : Nat) (st : HState) (dirty : Bool) (d : Line) : State :=
  let y := s.way key
  (s.putWay key
    { Way.init with
      valid := true, wtag := wpTag line, hstate := st, wdirtyA := dirty, wdirtyB := dirty, lock := y.lock
      stamp := if dirty then s.wp.sixteenth % 16 else 0
      data := d }).count 0x23 { addr := some (lineAddr line) }

/-- A new home state in the way; `wdirty` stays (R160, R165). -/
def State.wayState (s : State) (key : Nat) (st : HState) : State := s.putWay key { s.way key with hstate := st }

/-- New data in the way: a line that becomes dirty takes the current stamp; later writes leave it (R168). -/
def State.wayWrite (s : State) (key : Nat) (st : HState) (d : Line) (dirty : Bool) : State :=
  let y := s.way key
  let y := if dirty && !y.dirty then { y with stamp := s.wp.sixteenth % 16 } else y
  let y := { y with hstate := st, data := d, dataBad := false }
  s.putWay key (if dirty then y.setDirty true else y)

/-- The tier of a way for allocation, 0 when it is not allowed (R166). -/
def State.wayTier (s : State) (key : Nat) : Nat :=
  let y := s.way key
  if y.lock then 0
  else if !y.valid then 1
  else if s.lineOpen (wayLine key y) || s.wp.wbq.any (fun q => q.way == key) then 0
  else if y.hstate.lent then 6
  else if y.dirty then (if y.ref then 5 else 4)
  else if y.ref then 3 else 2

/-- The victim: the lowest-numbered way of the first tier up to `top` that has one. -/
def State.pickWay (s : State) (set top : Nat) : Option (Nat × Nat) :=
  let ts := (List.range 16).map (fun w => (s.wayTier (wayKey set w), wayKey set w))
  (List.range top).findSome? (fun i => ts.find? (fun e => e.1 == i + 1))

/-- A lookup hit sets `ref`; when every allowed way then has it, it is cleared in the others (R166). -/
def State.wayHit (s : State) (key : Nat) : State :=
  let y := s.way key
  if y.ref then s
  else
    let s := s.putWay key { y with ref := true }
    let set := key / 16
    let ok := (List.range 16).filter (fun w => s.wayTier (wayKey set w) != 0 || wayKey set w == key)
    if ok.all (fun w => (s.way (wayKey set w)).ref) then
      forEach (fun w s => if wayKey set w == key then s else
        s.putWay (wayKey set w) { s.way (wayKey set w) with ref := false }) ok s
    else s

/-! ### Work for another slot -/

/-- Recall a lent line with SNP_INV in a slot of its own (R125); none while no slot is free. `aux`: 0 the line lies in
the frame that slot `k` has open, 1 the way is wanted, 2 a dirty way's data failed its parity and 6 the refetch of a clean
one (R178), 4 as 0, and the frame failed its integrity check (R196), 5 a candidate of an unrecoverable frame (R197). -/
def State.recallLine (s : State) (k line : Nat) (st : HState) (src : Src) (d : Option Line) (aux : Nat) :
    Option State :=
  (s.takeSlot (sliceOf line) .snoop).map (fun r =>
    let o := r.2.newOrder
    let t := { Slot.blank .lineRecall .self line with
      hs := st, src := src, copy := d, forSlot := some k, aux := aux, order := o.1, regNo := o.1 }
    o.2.snoopStart r.1 t opSnpInv (o.2.snoopMask t))

/-- Write back a way in a slot of its own (R169). -/
def State.backWay (s : State) (parent : Option Nat) (key : Nat) (drop : Bool) (pool : Pool) : Option State :=
  let y := s.way key
  let line := wayLine key y
  (s.takeSlot (sliceOf line) pool).map (fun r =>
    let o := r.2.newOrder
    let s := o.2.setSlot r.1 (some { Slot.blank .writeBack .self line with
      forSlot := parent, order := o.1, regNo := o.1, hs := y.hstate, todo := [.cleanWay key drop] })
    s.count (if drop then 0x25 else 0x24) { addr := some (lineAddr line) })

/-- Empty a way for slot `k`: at once when it is clean and not lent, otherwise by a recall or a write-back. -/
def State.emptyWay (s : State) (k key : Nat) : Option State :=
  let y := s.way key
  if !y.valid then none
  else if y.hstate.lent then s.recallLine k (wayLine key y) y.hstate (.way key) (some y.data) 1
  else if y.dirty then s.backWay (some k) key true .write
  else some (s.dropWay key)

/-! ### Victims of a frame write (R161, R162) -/

/-- Write a line to DRAM out of a slot's buffer, where it stays until the acknowledgment (R123). -/
def State.dramOut (s : State) (k line : Nat) (d : Line) : State :=
  (s.dramPut (some k) line d).updSlot k (fun t => { t with victims := t.victims ++ [⟨line, d⟩] })

/-- The line other than its own that a slot's open frame holds. -/
def State.frameVictim (s : State) (t : Slot) : Option (Nat × HState) :=
  match t.frame with
  | some img =>
    match s.judge (s.placeOf t.line) t.line img with
    | .miss v => v
    | _ => none
  | none => none

/-- What becomes of the victim. -/
inductive Vacate where
  /-- The frame may be written. -/
  | ready (s : State)
  /-- A recall was started. -/
  | started (s : State)
  | waiting

/-- The victim is dealt with: the slot's image of the frame holds no line any more. -/
def State.frameEmpty (s : State) (k : Nat) : State := s.updSlot k (fun t => { t with frame := some voidFrame })

/-- Kinds whose read of their own line nobody asked for (R196). -/
def TxKind.unasked : TxKind → Bool
  | .prefetch => true | .regionRecall => true | .deadRegion => true | _ => false

/-- A line whose copy in the open frame fails its integrity check, in a read that nobody asked for (R196): another line, or
the line of such a transaction. -/
def State.failing (s : State) (t : Slot) (img : FrameImg) : Option (Nat × HState) :=
  match s.judge (s.placeOf t.line) t.line img with
  | .miss (some (v, st)) => if st == .hp || s.itagOk img v then none else some (v, st)
  | .integ st => if t.kind.unasked then some (t.line, st) else none
  | _ => none

/-- What the check of R196 leaves of a line's frame when no data comes back: HI from HC and HLC, HP otherwise. -/
def State.integLoss (s : State) (f v : Nat) (st : HState) (img : FrameImg) : FrameImg × State :=
  let addr := lineAddr v
  if st == .hc || st == .hlc then
    (s.restateFrame img v 0 s.sto.epoch, s.err rStoErr 5 3 .c none addr (stoDetail f 0))
  else (s.frameAt (s.placeOf v) v .hp 0, (s.err rStoErr 5 3 .p none addr (stoDetail f 0)).poisonIn v)

/-- The frame of a line that the waypoint holds fails its check: the waypoint copy decides what the frame becomes (R196). -/
def State.wayFail (s : State) (f line w : Nat) : FrameImg × State :=
  let y := s.way w
  let s := (s.cryAlarm 3 none (BitVec.ofNat 40 (lineAddr line))).err rStoErr 5 3 .c none (lineAddr line) (stoDetail f 0)
  (if y.dirty then voidFrame else s.frameAt (s.placeOf line) line y.hstate y.data, s)

/-- The check of the line in the open frame of slot `k` (R196, Unrequested): a lent line is recalled; none while no slot is
free for that. -/
def State.victimCheck (s : State) (k : Nat) (t : Slot) (img : FrameImg) : Option State :=
  if s.child k then some s
  else match s.failing t img with
    | none => some s
    | some (v, st) =>
      let f := t.frameKey
      let alarm := fun (s : State) => s.cryAlarm 3 none (BitVec.ofNat 40 (lineAddr v))
      let put := fun (r : FrameImg × State) =>
        some ((r.2.writeFrame f r.1).updSlot k (fun t => { t with frame := some r.1 }))
      match s.wayOf v with
      | some w => put (s.wayFail f v w)
      | none =>
        if st.lent then (s.recallLine k v st .frame none 4).map alarm else put ((alarm s).integLoss f v st img)

/-- A transaction is about to overwrite its own line's copy in the frame, and the copy fails its check (R196): what is left
of it does not matter, the failure is reported (log entry 42). -/
def State.ownFail (s : State) (t : Slot) : State :=
  match t.frame.map (s.judge (s.placeOf t.line) t.line) with
  | some (.integ st) =>
    let cls := if st == .hc || st == .hlc || (s.wayOf t.line).isSome then Cls.c else .p
    (s.cryAlarm 3 none (BitVec.ofNat 40 (lineAddr t.line))).err rStoErr 5 3 cls none (lineAddr t.line)
      (stoDetail t.frameKey 0)
  | _ => s

/-- Treat the line that the open frame of slot `k` holds before the frame is overwritten. -/
def State.vacateLine (s : State) (k : Nat) (t : Slot) : Vacate :=
  match s.frameVictim t, t.frame with
    | some (v, st), some img =>
      let d := s.frameLine img v
      let out := fun (s : State) => ((s.dramOut k v d).count 0x29 { addr := some (lineAddr v) }).frameEmpty k
      match s.wayOf v with
      | some w =>
        let y := s.way w
        if y.dirty then .ready (s.frameEmpty k)
        else if st == .hp then .ready ((s.poisonIn v).frameEmpty k)
        else if st == .hd || st == .hld then .ready (out (s.wayState w y.hstate.cleaned))
        else .ready (s.frameEmpty k)
      | none =>
        match st with
        | .hd => .ready (out s)
        | .hp => .ready ((s.poisonIn v).frameEmpty k)
        | .hlc | .hld =>
          match s.recallLine k v st .frame (some d) 0 with
          | some s => .started s
          | none => .waiting
        | _ => .ready (s.frameEmpty k)
    | _, _ => .ready s

/-- Check the line in the open frame and treat it, before the frame is overwritten. -/
def State.vacate (s : State) (k : Nat) (t : Slot) : Vacate :=
  if s.child k then .waiting
  else match t.frame.map (s.victimCheck k t) with
    | some none => .waiting
    | some (some s) =>
      if s.child k then .started s
      else match s.slot k with
        | some t => s.vacateLine k t
        | none => .ready s
    | none => .ready s

/-! ### The work list -/

/-- What an act will leave as the line's home copy. -/
def Act.leaves : Act → Option (HState × Line)
  | .alloc st dirty d direct => if dirty || direct then some (st, d) else none
  | .writeFrame st d => some (st, d)
  | .allocWait st d => some (st, d)
  | _ => none

/-- The home copy that another slot's placement is about to leave for the line of slot `k` (R121). -/
def State.placing (s : State) (k line : Nat) : Option (HState × Line) :=
  s.slotList.reverse.findSome? (fun e =>
    if e.1 != k && e.2.line == line && e.2.phase == .place then e.2.todo.findSome? Act.leaves else none)

/-- A placement on the line of slot `k` that was decided earlier is not complete. -/
def State.putFirst (s : State) (k : Nat) (t : Slot) : Bool :=
  t.putNo != 0 && s.slotList.any (fun e => e.1 != k && e.2.line == t.line && e.2.phase == .place && !e.2.todo.isEmpty
    && e.2.putNo != 0 && decide (e.2.putNo < t.putNo))

/-- A transaction ordered earlier, which a forwarding answer closed, has its placement still to complete (R118). -/
def State.lookFirst (s : State) (k : Nat) (t : Slot) : Bool :=
  s.slotList.any (fun e => e.1 != k && e.2.line == t.line && e.2.phase == .place && !e.2.todo.isEmpty
    && decide (e.2.order < t.order))

/-- The act writes the line's frame or may come to it (R163). -/
def Act.frames : Act → Bool
  | .alloc _ dirty _ direct => dirty || direct
  | .writeFrame _ _ => true
  | .cleanWay _ _ => true
  | .fixFrame _ _ => true
  | _ => false

/-- A frame whose transaction writes nothing closes (R163). -/
def State.frameIdle (s : State) (k : Nat) : State :=
  s.updSlot k (fun t =>
    if t.fuse == .opened && t.src != .dram && !(t.todo.any Act.frames) then { t with fuse := .no, frame := none } else t)

def State.pop (s : State) (k : Nat) : State := s.updSlot k (fun t => { t with todo := t.todo.tail })

def State.swapAct (s : State) (k : Nat) (a : Act) : State := s.updSlot k (fun t => { t with todo := a :: t.todo.tail })

/-- Get the frame open, then go on. -/
def State.withFrame (s : State) (k : Nat) (t : Slot) (go : Unit → Option State) : Option State :=
  match t.fuse with
  | .no => some (s.frameAsk k t)
  | .waiting => s.frameTry k t
  | .reading => none
  | .opened => go ()

/-- Issue the write of the open frame, once its victim is dealt with. -/
def State.issueWrite (s : State) (k : Nat) (t : Slot) (st : HState) (d : Line) : Option State :=
  match s.vacate k t with
  | .waiting => none
  | .started s => some s
  | .ready s =>
    let s := match s.slot k with | some t => s.ownFail t | none => s
    let img := s.frameAt (s.placeOf t.line) t.line st d
    some (s.updSlot k (fun t => { t with wrImg := some img, data := d }))

/-- A frame write for a line whose frame is closed (R165): data newer than DRAM goes to DRAM. -/
def State.writeClosed (s : State) (k : Nat) (t : Slot) (st : HState) (d : Line) : State :=
  let s := match s.wayOf t.line with
    | some w => if (s.way w).dirty then s else s.wayState w (s.way w).hstate.cleaned
    | none => s
  match st with
  | .hp => (s.poisonIn t.line).pop k
  | .hd => s.swapAct k (.writeDram d)
  | .hld => s.swapAct k (.writeDram d)
  | _ => s.pop k

/-- A write that the dirty quota or a full set sends to the frame (R165, R167). -/
def State.redirect (s : State) (k : Nat) (t : Slot) (st : HState) (d : Line) (bit : Nat) : State :=
  let s := s.err rWpcErr 4 bit .info t.logPort (lineAddr t.line)
  let s := if bit == 4 then s.count 0x26 { addr := some (lineAddr t.line) } else s
  s.swapAct k (.writeFrame st d)

/-- Take a way for the line by the tiers up to `top`; none when it has to wait. -/
def State.allocWay (s : State) (k : Nat) (t : Slot) (top : Nat) (st : HState) (dirty : Bool) (d : Line)
    (otherwise : Option State) : Option State :=
  if s.child k then none
  else match s.pickWay (wpSet t.line) top with
    | none => otherwise
    | some (tier, key) =>
      let s := s.frameClose k
      if tier ≤ 1 then some ((s.install key t.line st dirty d).pop k)
      else if tier ≤ 3 then some (((s.dropWay key).install key t.line st dirty d).pop k)
      else s.emptyWay k key

/-- Lock the line into a way whose occupant has left (R175). -/
def State.lockInto (s : State) (k : Nat) (t : Slot) (key : Nat) : State :=
  let lock := fun (s : State) => s.putWay key { s.way key with lock := true }
  let s :=
    match s.wayOf t.line with
    | some j =>
      if j = key then lock s
      else
        let y := s.way j
        lock ((s.dropWay j).putWay key y)
    | none => lock (s.install key t.line t.hs false (t.copy.getD 0))
  s.pop k

/-- One piece of placement work; none while it waits. -/
def State.runAct (s : State) (k : Nat) (t : Slot) (a : Act) : Option State :=
  if t.wrImg.isSome || s.putFirst k t then none
  else
    let closed := s.bypassed (s.placeOf t.line).frame
    match a with
    | .alloc st dirty d direct =>
      match s.wayOf t.line with
      | some w => some ((if dirty then s.wayWrite w st d true else s.wayState w st).pop k)
      | none =>
        if dirty && decide (s.dirtyQuota ≤ s.dirtyCnt) then some (s.redirect k t st d 4)
        else
          s.allocWay k t (if dirty then 6 else 3) st dirty d
            (some (if dirty then s.redirect k t st d 5 else if direct then s.swapAct k (.writeFrame st d) else s.pop k))
    | .allocWait st d =>
      match s.wayOf t.line with
      | some w => some ((s.wayState w st).pop k)
      | none => s.allocWay k t 6 st false d none
    | .writeFrame st d =>
      if closed then some (s.writeClosed k t st d)
      else s.withFrame k t (fun _ => s.issueWrite k t st d)
    | .writeDram d => some ((s.dramOut k t.line d).pop k)
    | .cleanWay key drop =>
      let y := s.way key
      if !y.valid || wayLine key y != t.line then some (s.pop k)
      else if !y.dirty then some ((if drop then s.dropWay key else s).pop k)
      else if closed then
        let s := if y.hstate == .hp then s.poisonIn t.line else s.dramOut k t.line y.data
        let s := s.putWay key { y.setDirty false with hstate := y.hstate.cleaned }
        some ((if drop then s.dropWay key else s).pop k)
      else s.withFrame k t (fun _ => s.issueWrite k t y.hstate y.data)
    | .lockWay key =>
      if s.child k then none
      else
        let y := s.way key
        if y.valid && wayLine key y != t.line then
          if s.lineOpen (wayLine key y) || s.wp.wbq.any (fun q => q.way == key) then none else s.emptyWay k key
        else some (s.lockInto k t key)
    | .fixFrame st d =>
      if closed then some (s.pop k)
      else s.withFrame k t (fun _ =>
        match t.frame.map (s.judge (s.placeOf t.line) t.line) with
        | some (.miss _) => some ((s.frameClose k).pop k)
        | none => some ((s.frameClose k).pop k)
        | _ => s.issueWrite k t st d)
    | .evictWay key =>
      if s.child k then none
      else
        let y := s.way key
        if !y.valid || wayLine key y != t.line then some (s.pop k) else s.emptyWay k key
    | .dropLine => some ((match s.wayOf t.line with | some w => s.dropWay w | none => s).pop k)

/-- The frame write of a slot completes: the image is stored, the frame closes, and the way of a write-back is clean
(R163, R169). -/
def State.frameWritten (s : State) (k : Nat) (t : Slot) (img : FrameImg) : State :=
  let s := s.writeFrame (s.placeOf t.line).frame img
  let s := s.updSlot k (fun t => { t with wrImg := none, fuse := .no, frame := none, todo := t.todo.tail })
  match t.todo with
  | .cleanWay key drop :: _ =>
    let y := s.way key
    if y.valid && wayLine key y == t.line && y.data == t.data then
      let s := s.putWay key (y.setDirty false)
      if drop then s.dropWay key else s
    else s
  | _ => s

end Sys2Proof.Machine
end

