-- ==== Sys2Proof/Machine/Faults.lean ====
section
/-! DEFINITION. What becomes of a line whose frame is lost or closed: spills (R223), the lines of closed frames (R165, R201),
hard faults (R199, R200), unrecoverable park frames (R197) and verify reads (R194). -/
namespace Sys2Proof.Machine

/-- Park slot and line that a frame of the park partition serves (R215). -/
def State.parkOf (s : State) (f : Nat) : Option (Nat × Nat) :=
  if f < cacheFrames s.prk.size then none
  else
    let k := (2 ^ 25 - 1 - f) / 16384
    let line := (s.pslot k).region * 16384 + f % 16384
    if s.served line == .park k then some (k, line) else none

/-- The line that a frame image holds at its place, its state, and whether its checks hold (R191, R216). -/
def State.holds (s : State) (f : Nat) (img : FrameImg) : Option (Nat × HState × Bool) :=
  let st := frameHs img
  match s.parkOf f with
  | some (k, line) =>
    let ok := frameEpoch img == (s.pslot k).gen && frameTag img == parkRegion line % 64
    some (line, parkState st, ok && (st == .hp || s.itagOk img line))
  | none =>
    if cacheFrames s.prk.size ≤ f ∨ s.sto.epoch = 0 ∨ frameEpoch img ≠ s.sto.epoch ∨ st = .hi then none
    else
      let line := lineOfFrame f (frameTag img)
      some (line, st, st == .hp || s.itagOk img line)

/-- A transaction of the device's own on a line, with placement work and nothing to look up. -/
def State.selfSlot (s : State) (pool : Pool) (line : Nat) (hs : HState) (todo : List Act) : Option State :=
  (s.takeSlot (sliceOf line) pool).map (fun r =>
    let o := r.2.newOrder
    o.2.setSlot r.1 (some { Slot.blank .writeBack .self line with
      order := o.1, regNo := o.1, putNo := o.1, phase := .place, hs := hs, todo := todo }))

/-- The home copy of a line in a way goes to DRAM as well; a way whose data is bad gives what its frame held. None while a
dirty way's data is bad (R178). -/
def State.wayToDram (s : State) (w : Nat) (line : Nat) (d : Line) : Option State :=
  let y := s.way w
  if y.dataBad && y.dirty then none
  else
    let s := if y.hstate == .hp then s.poisonIn line else s.dramWrite line (if y.dataBad then d else y.data)
    some (s.putWay w { y.setDirty false with hstate := y.hstate.cleaned })

/-- A line leaves its park frame for the normal path, which already serves it (R221, R223). -/
def State.lineToDram (s : State) (pool : Pool) (line : Nat) (st : HState) (d : Line) : Option State :=
  match s.wayOf line with
  | some w => s.wayToDram w line d
  | none =>
    if st == .hp then some (s.poisonIn line)
    else
      let s := s.dramWrite line d
      if st.lent then
        s.selfSlot pool line .hlc [if s.bypassed (s.placeOf line).frame then .allocWait .hlc d else .writeFrame .hlc d]
      else some s

/-- A line of park slot `k` follows the normal path from now on (R223): it enters the spill list, and where that is full the
whole region is unparked, once the park or relocation that runs has finished (R222). -/
def State.spillAdd (s : State) (k line : Nat) : State :=
  let p := s.pslot k
  let j := parkIndex line
  let s := s.err rPrkErr 6 1 .info none (lineAddr line)
  if s.prk.spill.length < 256 then { s with prk := { s.prk with spill := sinsert line s.prk.spill } }
  else
    let s := s.err rPrkErr 6 2 .info none (lineAddr line)
    match p.pstate with
    | .parked => s.setPslot k { p with pstate := .unparking, moved := [j], next := 0 }
    | .unparking => s.setPslot k { p with moved := sinsert j p.moved }
    | .parking => s.setPslot k { p with out := sinsert j p.out }
    | .moving =>
      match p.target with
      | some t =>
        (s.setPslot k { p with moved := sinsert j p.moved }).setPslot t
          { s.pslot t with moved := sinsert j (s.pslot t).moved, out := sinsert j (s.pslot t).out }
      | none => s
    | _ => s

/-- The line of a bypassed park frame spills; none while it has to wait for a slot or a way. -/
def State.spillLine (s : State) (k line : Nat) (st : HState) (d : Line) : Option State :=
  (s.spillAdd k line).lineToDram .maint line st d

/-- The line of a closed cache frame (R165, R201): data newer than DRAM goes to DRAM, and a lent line takes a way. -/
def State.closedLine (s : State) (line : Nat) (st : HState) (d : Line) : Option State :=
  match s.wayOf line with
  | some w =>
    let h := (s.way w).hstate
    if (s.way w).dirty || h == .hc || h == .hlc || h == .hi then some s else s.wayToDram w line d
  | none =>
    if st == .hp then some (s.poisonIn line)
    else
      let s := if st == .hd || st == .hld then s.dramWrite line d else s
      if st.lent then s.selfSlot .maint line .hlc [.allocWait .hlc d] else some s

/-- The line that a frame holds goes elsewhere: the frame has been closed. -/
def State.frameGone (s : State) (f : Nat) (img : FrameImg) : Option State :=
  match s.holds f img with
  | none => some s
  | some (line, st, _) =>
    match s.parkOf f with
    | some (k, _) => s.spillLine k line st (s.frameLine img line)
    | none => s.closedLine line st (s.frameLine img line)

/-- A frame with known content is hard-faulted (R199): no layer loses the content. None while it has to wait for a slot. -/
def State.faultOut (s : State) (f : Nat) (content : FrameImg) : Option State :=
  let r := s.hardFault f content
  if r.bypassed f then r.frameGone f content else some r

/-- An unrecoverable park frame poisons its one line (R197), unless the waypoint holds the line (R159); the frame is
hard-faulted. -/
def State.parkLost (s : State) (f line : Nat) (finder : Option Nat) : State :=
  let rec_ := fun (s : State) (n : Nat) => s.err rStoErr 5 2 .p finder (lineAddr line) (stoDetail f n)
  match (s.wayOf line).filter (fun w => !(s.way w).dataBad) with
  | some w =>
    let s := rec_ s 0
    (s.faultOut f (s.frameAt (s.placeOf line) line (s.way w).hstate (s.way w).data)).getD s
  | none =>
    let s := (rec_ s 1).cancelLine line
    (s.faultOut f (s.frameAt (s.placeOf line) line .hp 0)).getD s

/-- Lines whose frame is the failed one (R197). -/
def State.candidates (s : State) (f : Nat) : List Nat :=
  ((List.range 64).map (lineOfFrame f)).filter (fun line =>
    (frameOf s.prk.size line).1 == f && decide (line < 2 ^ 30) && s.installed line
      && s.served line == .normal && (s.wayOf line).isNone && !(s.poisonListed line))

/-! ### Reads while no traffic flows (R192) -/

/-- A frame read of a drain or of the unlend sweep: an unrequested read (R196, R197) with no link left to recall from. What
the frame holds afterwards. -/
def State.quietRead (s : State) (f : Nat) : FrameImg × State :=
  match readImage (s.image f) {} with
  | none =>
    match s.parkOf f with
    | some (_, line) =>
      let s := s.parkLost f line none
      (s.image f, s)
    | none =>
      let c := s.candidates f
      let s := forEach (fun x s => s.poisonIn x) c s
      (voidFrame, (s.err rStoErr 5 2 .p none 0 (stoDetail f c.length)).hardFault f voidFrame)
  | some (img, fix) =>
    let h := s.holds f img
    let s := s.noteFix f img fix none ((h.map (·.1)).getD 0)
    match h with
    | some (line, st, false) =>
      let r :=
        match s.wayOf line with
        | some w => s.wayFail f line w
        | none => (s.cryAlarm 3 none (BitVec.ofNat 40 (lineAddr line))).integLoss f line st img
      (r.1, r.2.writeFrame f r.1)
    | _ => (img, s)

/-- A lent home copy returns to its state before lending, in waypoint or frame (R181). -/
def State.unlendLine (s : State) (line : Nat) : State :=
  match s.wayOf line with
  | some w => if (s.way w).hstate.lent then s.wayState w (s.way w).hstate.unlent else s
  | none =>
    let p := s.placeOf line
    if s.bypassed p.frame then s
    else
      let r := s.quietRead p.frame
      match r.2.judge p line r.1 with
      | .hit st => if st.lent then r.2.writeLineFrame line st.unlent (r.2.frameLine r.1 line) else r.2
      | _ => r.2

def State.unlendRegion (s : State) (region : Nat) : State :=
  forEach (fun i s => s.unlendLine (region * 32 + i)) (List.range 32) s

/-- A verify read that shows any error hard-faults the frame (R194). -/
def State.verifyRead (s : State) (c : Correction) (e : FrameErr) : Option State :=
  match readImage c.image e with
  | some (_, 0) => some s
  | some (_, fix) => (s.noteRead c.key fix none 0).faultOut c.key c.image
  | none => s.faultOut c.key c.image

end Sys2Proof.Machine
end

