-- ==== Sys2Proof/Machine/Home.lean ====
section
/-! DEFINITION. The home engine: registration and ordering (R102, R103), lookup (R161), the flows by request (R115 to
R117), what failed reads do (R196, R197, R269), recalls (R107, R125), and the driver that advances every slot as far as
it can go without an event from outside. -/
namespace Sys2Proof.Machine

/-! ### Kinds -/

/-- Demand read kinds (R93). -/
def TxKind.isDemand : TxKind → Bool
  | .rdShared => true | .rdUnique => true | .rdOnce => true | .rdRsv => true | .upgrade => true | _ => false

/-- Reads that do not lend (R123, R272). -/
def TxKind.plainRead : TxKind → Bool
  | .rdShared => true | .rdOnce => true | .rdRsv => true | _ => false

/-- Requests that merge into the line (R269). -/
def TxKind.merges : TxKind → Bool
  | .wrPtl => true | .wrCond => true | .atomic => true | _ => false

def TxKind.isWrite : TxKind → Bool
  | .wrPtl => true | .wrCond => true | .atomic => true | .wrFull => true | .wbFull => true | _ => false

/-- Kinds that may be granted a line (R105). -/
def TxKind.grants : TxKind → Bool
  | .rdShared => true | .rdUnique => true | .upgrade => true | _ => false

def Slot.portOrg (t : Slot) : Bool := match t.org with | .port _ _ => true | _ => false

/-- A demand read from a port: it needs the miss token (R93) and counts as a demand read (R344). -/
def Slot.demand (t : Slot) : Bool := t.kind.isDemand && t.portOrg

/-- The line belongs to a LOST slot (R217). -/
def State.lostLine (s : State) (line : Nat) : Bool := s.served line == .lost

def State.freeSlot (s : State) (k : Nat) : State := s.setSlot k none

/-- A filter entry that a request allocated and was not granted under goes again (R105). -/
def State.filterDrop (s : State) (t : Slot) : State :=
  match s.filterFind (regionNo t.line) with
  | some (k, f) => if t.kind.grants && f.presence == 0 && !f.recalling && s.regionOpen f.region == 0 then s.setFent k none
                   else s
  | none => s

/-! ### Ordering -/

/-- A conditional store succeeds when the port's reservation is valid and covers its bytes (R149). -/
def State.condHolds (s : State) (p : Nat) (t : Slot) : Bool :=
  match (s.port p).rsv with
  | some g => decide (g ≤ t.addr.toNat) && decide (t.addr.toNat + t.size ≤ g + s.rsvGranule)
  | none => false

/-- Effects of the ordering fc (R102): reservations (R147 to R149), the poison list (R251), vacancy (R226), release of
the lay-by entry (R89). -/
def State.orderSlot (s : State) (k : Nat) (t : Slot) : State :=
  let o := s.newOrder
  let t := { t with order := o.1, phase := .lookup, fuse := .no }
  let s := o.2
  let s := if t.portOrg && t.kind != .prefetch then s.count 0x10 t.attr else s
  let s := if t.kind == .atomic then s.count 0x1E t.attr else s
  let s := if t.kind.isWrite && t.kind != .wbFull && t.kind != .wrCond then (s.cancelWritten t).vacWrite t.line else s
  let s := if t.kind == .wrFull && !(s.lostLine t.line) then s.poisonFree t.line else s
  let s := if t.kind == .mInval || t.kind == .mCleanInval then s.cancelRsv (lineAddr t.line) 128 t.order (fun _ => true)
           else s
  match t.org with
  | .port p _ =>
    match t.kind with
    | .wrFull => (s.setPort p ((s.port p).release t.ansId)).setSlot k (some t)
    | .wrPtl => (s.setPort p ((s.port p).release t.ansId)).setSlot k (some t)
    | .rdRsv =>
      ((s.setPort p { s.port p with rsv := some (s.granuleBase t.addr.toNat), rsvOrder := t.order }).count 0x1B t.attr
        ).setSlot k (some t)
    | .wrCond =>
      let ok := s.condHolds p t
      let s := s.setPort p { s.port p with rsv := none }
      if ok then
        (((s.cancelWritten t).vacWrite t.line).count 0x1C t.attr).setSlot k (some { t with condOk := true })
      else ((s.count 0x1D t.attr).reply t false stCondFail grI 0).freeSlot k
    | _ => s.setSlot k (some t)
  | _ => s.setSlot k (some t)

/-- A request that is ordered, or waits for its granule's pave first (R272). -/
def State.letIn (s : State) (k : Nat) (t : Slot) : State :=
  if s.unpaved t.line && (t.kind == .rdUnique || t.kind == .upgrade || t.kind == .lockFill || t.kind.isWrite) then
    s.setSlot k (some { t with phase := .pave })
  else s.orderSlot k t

/-- A region that a request needs moves to the front of the recovery (R127). -/
def State.recoverFirst (s : State) (region : Nat) : State :=
  match s.filterFind region with
  | some (k, _) =>
    let r := s.home.recovering
    { s with home := { s.home with recovering := r.filter (fun e => e.2 == k) ++ r.filter (fun e => e.2 != k) } }
  | none => s

/-- A request of the same queue waits in the line's chain: the two keep their order (R134). -/
def State.sameQueue (s : State) (t : Slot) : Bool :=
  (s.chain t.line).any (fun k =>
    match s.slot k, t.org with
    | some u, .port p tc => u.org == .port p tc
    | _, _ => false)

/-- With no transaction open on its line, a request still attaches to the chain when others wait there. A line that is only
a dirty victim, which the waypoint does not hold, holds up no plain read (R123). -/
def State.mustChain (s : State) (t : Slot) : Bool :=
  match s.victimOf t.line with
  | some _ => !t.kind.plainRead || s.sameQueue t || ((s.wayOf t.line).isSome && !(s.chain t.line).isEmpty)
  | none => !(s.chain t.line).isEmpty

/-- Earlier requests still wait for the region: a later one waits behind them (R107, R134, R135). -/
def State.regionWaiting (s : State) (region : Nat) : Bool :=
  s.slotList.any (fun e => e.2.phase == .regionWait && regionNo e.2.line == region)

/-- Register a slot in the open-line table (R102, R103). -/
def State.register (s : State) (k : Nat) (t : Slot) : State :=
  let o := s.newOrder
  let s := o.2
  let t := { t with regNo := o.1 }
  if t.kind == .evictClean then s.orderSlot k t
  else if s.regionBusy (regionNo t.line) || s.regionWaiting (regionNo t.line) then
    (s.recoverFirst (regionNo t.line)).setSlot k (some { t with phase := .regionWait })
  else if t.kind == .prefetch && (s.txOpen t.line || (s.victimOf t.line).isSome) then s.count 0x2F t.attr
  else if s.txOpen t.line || s.mustChain t then
    ((s.setSlot k (some { t with phase := .chained })).setChain t.line (s.chain t.line ++ [k])).count 0x11 t.attr
  else s.letIn k t

/-! ### Waypoint updates -/

/-- What still has to be done so that the line's home copy takes a new state with the same data (R165). -/
def State.putState (s : State) (k : Nat) (t : Slot) (st : HState) (d : Line) : State :=
  match s.wayOf t.line with
  | some w => s.wayState w st
  | none =>
    match t.src with
    | .dram =>
      if s.bypassed (s.placeOf t.line).frame then
        if st.lent then s.updSlot k (fun t => { t with todo := t.todo ++ [.allocWait st d] }) else s
      else s.updSlot k (fun t => { t with todo := t.todo ++ [.writeFrame st d] })
    | .victim => s
    | .zeros => s
    | _ => s.updSlot k (fun t => { t with todo := t.todo ++ [.alloc st false d true] })

/-- The line takes new data (R165, R167). -/
def State.putData (s : State) (k : Nat) (t : Slot) (st : HState) (d : Line) : State :=
  match s.wayOf t.line with
  | some w =>
    if (s.way w).dirty || decide (s.dirtyCnt < s.dirtyQuota) then s.wayWrite w st d true
    else
      let s := s.err rWpcErr 4 4 .info t.logPort (lineAddr t.line)
      ((s.count 0x26 { addr := some (lineAddr t.line) }).wayWrite w st d false).updSlot k (fun t =>
        { t with todo := t.todo ++ [.writeFrame st d] })
  | none => s.updSlot k (fun t => { t with
      todo := t.todo ++ [if s.offline then .writeFrame st d else .alloc st true d true] })

/-- The line becomes HP where its home copy is (R331). -/
def State.makeHp (s : State) (k : Nat) (t : Slot) : State :=
  let s := s.cancelLine t.line
  match s.wayOf t.line with
  | some _ => s.putData k t .hp 0
  | none =>
    match t.src with
    | .dram => s.poisonIn t.line
    | _ => s.updSlot k (fun t => { t with todo := t.todo ++ [.writeFrame .hp 0] })

/-! ### Own line failures (R269) and poison answers (R116) -/

/-- The answer of a request whose line is in HP (R116) or LOST (R218). -/
def State.hpAnswer (s : State) (k : Nat) (t : Slot) : State :=
  let s := s.setSlot k (some { t with phase := .place, granted := true, todo := [] })
  match t.kind with
  | .wrPtl =>
    ((s.logEvent 3 0x80 .p t.logPort t.addr.toNat).reply t false stPoison grI 0)
  | .wrFull => (s.logEvent 3 0x80 .p t.logPort t.addr.toNat).reply t false stPoison grI 0
  | .evictClean => s.reply t false stOk grI 0
  | .prefetch => s.count 0x2F t.attr
  | .lockFill => s.maintDone 3
  | _ => s.replyBad t stPoison

/-- The handling of the line by where it was found, when its own request's check failed (R269). -/
def State.integOwn (s : State) (k : Nat) (t : Slot) : State :=
  let s := s.cryAlarm 2 t.port t.addr
  let s := if t.kind == .lockFill then
      (s.maintDone 3).updSlot k (fun t => { t with hs := .hp, todo := [] }) else s
  let p := s.placeOf t.line
  let refuse := fun (s : State) => s.replyBad t stBusErr
  if t.kind.merges then
    let s := s.updSlot k (fun t => { t with phase := .place, granted := true })
    let s := if t.src == .frame then s.err rStoErr 5 3 .p t.logPort (lineAddr t.line)
             else s.logEvent 8 0x80 .p t.logPort (lineAddr t.line)
    refuse (s.makeHp k t)
  else
    let s := s.updSlot k (fun t => { t with phase := .place, granted := true })
    let s := refuse s
    match t.src with
    | .frame =>
      match t.got with
      | some d =>
        (s.err rStoErr 5 3 .c t.logPort (lineAddr t.line)).updSlot k (fun t => { t with todo := [.fixFrame .hd d] })
      | none =>
        if (t.hs == .hc || t.hs == .hlc) && p.park.isNone then
          (s.err rStoErr 5 3 .c t.logPort (lineAddr t.line)).updSlot k (fun t => { t with todo := [.fixFrame .hi 0] })
        else
          ((s.err rStoErr 5 3 .p t.logPort (lineAddr t.line)).poisonIn t.line).updSlot k (fun t =>
            { t with todo := [.fixFrame .hp 0] })
    | _ =>
      let s := s.logEvent 8 0x80 .p t.logPort (lineAddr t.line)
      if (s.wayOf t.line).isSome || (s.placing k t.line).isSome then s else s.poisonIn t.line

/-! ### DRAM reads -/

/-- A parked miss takes its place among those of its port, in the order in which they were dispatched (R93). -/
def State.parkMiss (s : State) (k : Nat) (t : Slot) (l : List Nat) : List Nat :=
  let before := fun i => decide (((s.slot i).map (·.regNo)).getD 0 < t.regNo)
  l.filter before ++ [k] ++ l.filter (fun i => !before i)

/-- Issue the slot's DRAM read, under the miss token where it is a demand miss (R93, R94). -/
def State.dramStart (s : State) (k : Nat) (t : Slot) : State :=
  match t.org with
  | .port p _ =>
    if t.kind.isDemand then
      let u := s.port p
      if u.missToken.isNone && u.parked.isEmpty then
        ((s.setPort p { u with missToken := some k }).setSlot k (some { t with dram := .reading })).dramReadIssue k t.line
      else
        ((s.setPort p { u with parked := s.parkMiss k t u.parked }).setSlot k (some { t with dram := .parked })).count 0x0E t.attr
    else (s.setSlot k (some { t with dram := .reading })).dramReadIssue k t.line
  | _ => (s.setSlot k (some { t with dram := .reading })).dramReadIssue k t.line

/-! ### The home state is known (R115 to R117) -/

/-- Snoop, read DRAM where the flow needs it, and wait for both. -/
def State.flow (s : State) (k : Nat) (t : Slot) (op : Option (BitVec 6)) (dram : Bool) : State :=
  let s := s.setSlot k (some { t with phase := .gather })
  let s := if dram then s.dramStart k { t with phase := .gather } else s
  match op, s.slot k with
  | some op, some t => s.snoopStart k t op (s.snoopMask t)
  | _, _ => s

/-- The links that a recovery asks for a line: those in `presence` but the dead one (R127). -/
def State.survivors (s : State) (t : Slot) : BitVec 16 :=
  ((s.fent t.fkey).map (·.presence)).getD 0 &&& ~~~ (linkBit t.agent) &&& s.cachingMask

/-- The home state of the slot's line is known: R115 by opcode, R107 and R127 for the lines of a region. -/
def State.know (s : State) (k : Nat) (t : Slot) : State :=
  let miss := t.src == .dram
  let t := { t with condOk := t.condOk || (t.kind == .rdShared && s.snoopMask t == 0) }
  if s.lostLine t.line && (t.portOrg || t.kind == .rdOnce || t.kind.isWrite || t.kind == .lockFill) then s.hpAnswer k t
  else if t.hs == .hp && (t.kind.isDemand || t.kind.merges || t.kind == .evictClean || t.kind == .prefetch
      || t.kind == .lockFill) then s.hpAnswer k t
  else match t.kind with
    | .rdShared => s.flow k t (if t.hs.lent then some opFwdShared else none) miss
    | .rdOnce =>
      s.flow k t (if t.hs.lent then some (if t.portOrg then opFwdShared else opSnpShared) else none) miss
    | .rdRsv => s.flow k t (if t.hs.lent then some opFwdShared else none) miss
    | .rdUnique => s.flow k t (some (if t.hs.lent then opFwdUnique else opSnpInv)) miss
    | .upgrade =>
      if t.hs.lent then s.flow k t (some opFwdUnique) miss
      else
        let held := match t.org with | .port p _ => s.inPresence (regionNo t.line) (p / 64) | _ => false
        let short := (t.hs == .hc || t.hs == .hd) && held && !t.crossed
        s.flow k { t with condOk := short } (some opSnpInv) miss
    | .atomic => s.flow k t (some opSnpInv) miss
    | .wrPtl => s.flow k t (some opSnpInv) miss
    | .wrCond => s.flow k t (some opSnpInv) miss
    | .wrFull => s.flow k t (if t.hs == .hp then none else some opSnpInv) false
    | .evictClean => s.flow k t none false
    | .prefetch =>
      if miss then s.flow k t none true
      else (s.count 0x2F t.attr).setSlot k (some { t with phase := .place })
    | .mClean => s.flow k t (if t.hs.lent then some opSnpShared else none) false
    | .mInval => s.flow k t (some opSnpInv) false
    | .mCleanInval => s.flow k t (some opSnpInv) false
    | .lockFill => s.flow k t none miss
    | .regionRecall =>
      let s := s.setSlot k (some { t with phase := .gather })
      if t.hs.lent then s.putState k t t.hs.unlent (t.copy.getD 0) else s
    | .deadRegion =>
      if t.hs.lent then s.snoopSend k { t with phase := .gather, granted := true, snpOp := opSnpShared } (s.survivors t)
      else s.setSlot k (some { t with phase := .gather, granted := false })
    | _ => s.setSlot k (some { t with phase := .gather })

/-! ### Lookup (R161, R178, R179) -/

/-- The tag parity of a set (R179): none when it holds, otherwise the state after the handling. The set is read again once;
an error that the second read does not show changes nothing. -/
def State.tagParity (s : State) (set : Nat) : Option State :=
  if s.wp.tagOnce.contains set then
    some ({ s with wp := { s.wp with tagOnce := serase set s.wp.tagOnce } }.err rWpcErr 4 2 .c none 0)
  else match ((List.range 16).map (wayKey set)).find? (fun w => (s.way w).tpar != (s.way w).parity) with
  | none => none
  | some w =>
    let y := s.way w
    let addr := lineAddr (wayLine w y)
    if !y.wdirtyA && !y.wdirtyB && (y.hstate == .hc || y.hstate == .hd || y.hstate == .hi) then
      some ((s.dropWay w).err rWpcErr 4 2 .c none addr)
    else some (((s.putWay w y).err rWpcErr 4 3 .x none addr).stopState 4 4)

/-- A data parity error in a way with `wdirty` 1 (R178): a recall when the line is lent, otherwise poison. None while a
recall is owed or under way. -/
def State.wayLost (s : State) (k w : Nat) (port : Option Nat) : Option State :=
  let y := s.way w
  let line := wayLine w y
  if y.hstate.lent then
    if s.child k then none else s.recallLine k line y.hstate (.way w) none 2
  else
    some (((s.err rWpcErr 4 1 .p port (lineAddr line)).cancelLine line).putWay w
      { y with hstate := .hp, data := 0, dataBad := false })

/-- A data parity error found by a transaction (R178): a way with `wdirty` 0 is refetched from the frame where the frame may
hold the line, and from DRAM otherwise. -/
def State.wayParity (s : State) (k w : Nat) (t : Slot) : Option State :=
  let y := s.way w
  if y.dirty then s.wayLost k w t.logPort
  else
    let s := s.err rWpcErr 4 0 .c t.logPort (lineAddr t.line)
    if s.bypassed (s.placeOf t.line).frame then
      some ((s.setSlot k (some { t with refetch := true, dram := .reading })).dramReadIssue k t.line)
    else some (s.frameAsk k { t with refetch := true })

/-- The refetch fails (R178): a lent line is recalled, and the way is invalidated. -/
def State.refetchFail (s : State) (k w : Nat) (t : Slot) : Option State :=
  let y := s.way w
  let t := { t with refetch := false, fuse := .no, frame := none }
  let s := s.setSlot k (some (if t.poisoned then { t with phase := .gather, src := .dram, hs := .hi }
    else { t with dram := .no }))
  if y.hstate.lent then s.recallLine k t.line y.hstate (.way w) none 6 else some (s.dropWay w)

/-- The frame that a refetch reads (R178): the line's copy, DRAM when the frame does not hold the line, or a failure that
is handled as that of the request's own read. -/
def State.refetchKnown (s : State) (k : Nat) (t : Slot) (img : FrameImg) : Option State :=
  match s.wayOf t.line with
  | none => some (s.setSlot k (some { t with refetch := false, fuse := .no, frame := none }))
  | some w =>
    match s.judge (s.placeOf t.line) t.line img with
    | .hit _ =>
      some ((s.putWay w { s.way w with data := s.frameLine img t.line, dataBad := false }).setSlot k
        (some { t with refetch := false, fuse := .no, frame := none }))
    | .miss _ =>
      if t.dram == .reading then none
      else if t.dram == .got then s.refetchFail k w t
      else some ((s.setSlot k (some { t with dram := .reading })).dramReadIssue k t.line)
    | _ => s.refetchFail k w t

/-- A lookup finds a way whose data is bad: the refetch starts, is awaited, or has failed in DRAM. -/
def State.lookBad (s : State) (k w : Nat) (t : Slot) : Option State :=
  if t.dram == .reading then none
  else if t.refetch && t.dram == .got then s.refetchFail k w t
  else s.wayParity k w t

/-- A read of zeros from an unpaved granule (R272). -/
def State.zeroRead (s : State) (k : Nat) (t : Slot) : State :=
  let st := if t.kind == .rdShared then grS else grI
  let s := s.reply t true stOk st 0
  let s := if t.kind == .rdShared then s.grant t grS else s
  s.freeSlot k

/-- A prefetch reads its frame while its die is below its cap (R173). -/
def State.prefetchFrame (s : State) (k : Nat) (t : Slot) : State :=
  let d := dieOf (s.placeOf t.line).frame
  let left := tget zeroDef s.wp.diePf d
  if left = 0 then ((s.count 0x30 t.attr).count 0x2F t.attr).freeSlot k
  else ({ s with wp := { s.wp with diePf := tset zeroDef s.wp.diePf d (left - 1) } }).frameAsk k t

/-- A write-back looks nothing up: its way's data is checked (R178) and its work begins. -/
def State.lookBack (s : State) (k : Nat) (t : Slot) : Option State :=
  let go := some (s.setSlot k (some { t with phase := .place }))
  match s.wayOf t.line with
  | some w => if (s.way w).dataBad && (s.way w).dirty then s.wayLost k w none else go
  | none => go

/-- The lookup of a line of a region: the waypoint, or the frame (R107, R127). -/
def State.lookRegion (s : State) (k : Nat) (t : Slot) : Option State :=
  match s.wayOf t.line with
  | some w => some (s.know k { t with hs := (s.way w).hstate, src := .way w, copy := some (s.way w).data })
  | none =>
    if s.bypassed (s.placeOf t.line).frame then some (s.know k { t with hs := .hi, src := .dram })
    else some (s.frameAsk k t)

/-- The tag lookup of a slot. -/
def State.lookup (s : State) (k : Nat) (t : Slot) : Option State :=
  if s.lookFirst k t || t.kind == .parkMove then none
  else if t.kind == .writeBack then s.lookBack k t
  else if t.kind == .regionRecall || t.kind == .deadRegion then s.lookRegion k t
  else if t.kind == .prefetch && ((s.served t.line != .normal) || s.unpaved t.line || (s.wayOf t.line).isSome) then
    some ((s.count 0x2F t.attr).freeSlot k)
  else if s.unpaved t.line && t.kind.plainRead then some (s.zeroRead k t)
  else match s.tagParity (wpSet t.line) with
    | some s => some s
    | none =>
      match s.wayOf t.line with
      | some w =>
        let y := s.way w
        if y.dataBad && t.kind != .wrFull then s.lookBad k w t
        else
          let s := if t.demand then s.count 0x21 t.attr else s
          some ((s.wayHit w).know k { t with hs := y.hstate, src := .way w, copy := some y.data })
      | none =>
        match s.victimOf t.line with
        | some v =>
          if !t.kind.plainRead then none else
          let st := if t.kind == .rdShared then grS else grI
          let s := (s.count 0x12 t.attr).reply t true stOk st v.data
          some ((if t.kind == .rdShared then s.grant t grS else s).freeSlot k)
        | none =>
        match s.placing k t.line with
        | some c => some (s.know k { t with hs := c.1, src := .frame, copy := some c.2 })
        | none =>
          let s := if t.demand then s.count 0x22 t.attr else s
          let hp := if s.poisonListed t.line then HState.hp else .hi
          if t.kind == .wrFull then
            some (s.know k { t with hs := (s.homeCopy t.line).st, src := .dram })
          else if s.bypassed (s.placeOf t.line).frame || s.lostLine t.line then
            let s := if t.demand then s.count 0x28 t.attr else s
            some (s.know k { t with hs := hp, src := .dram })
          else if t.kind == .prefetch then some (s.prefetchFrame k t)
          else some (s.frameAsk k t)

/-! ### Frame reads -/

/-- The outcome of the lookup's frame read (R161). A miss on a line whose victim write is in flight waits for its
acknowledgment (R123). -/
def State.frameKnown (s : State) (k : Nat) (t : Slot) (img : FrameImg) : State :=
  match s.wayOf t.line with
  | some w =>
    let y := s.way w
    s.know k { t with hs := y.hstate, src := .way w, copy := some y.data, fuse := .no, frame := none }
  | none =>
    let p := s.placeOf t.line
    match s.placing k t.line with
    | some c => s.know k { t with hs := c.1, src := .frame, copy := some c.2, fuse := .no, frame := none }
    | none =>
    match s.judge p t.line img with
    | .hit st =>
      let s := s.count (if p.park.isSome then 0x2A else 0x27) t.attr
      s.know k { t with hs := st, src := .frame, copy := some (s.frameLine img t.line) }
    | .poison => s.know k { t with hs := .hp, src := .frame }
    | .integ st =>
      let t := { t with hs := st, src := .frame, poisoned := true }
      if st.lent then s.snoopStart k t opSnpInv (s.snoopMask t) else s.setSlot k (some { t with phase := .gather })
    | .miss _ =>
      if (s.victimOf t.line).isSome then s.setSlot k (some t) else
      let s := if t.demand then s.count 0x28 t.attr else s
      let hp := if s.poisonListed t.line then HState.hp else .hi
      let s := s.know k { t with hs := hp, src := .dram }
      match s.slot k with
      | some t =>
        if (t.kind.isDemand || t.kind == .prefetch) && t.dram != .no then
          match s.vacate k t with
          | .ready s => s
          | .started s => s
          | .waiting => s
        else s
      | none => s

/-- A frame read returns (R191 to R197). -/
def State.frameRead (s : State) (k : Nat) (t : Slot) (e : FrameErr) : State :=
  let f := t.frameKey
  match readImage (s.image f) e with
  | none =>
    match (s.placeOf t.line).park with
    | some _ =>
      (s.parkLost f t.line t.finder).updSlot k (fun t => { t with fuse := .no, refetch := false })
    | none =>
      let s := match s.wayOf t.line with
        | some w => if t.refetch && !(s.way w).hstate.lent then s.dropWay w else s
        | none => s
      s.setSlot k (some { t with fuse := .opened, frame := none, refetch := false, cands := s.candidates f, aux := 0 })
  | some (img, fix) =>
    (s.noteFix f img fix t.finder t.line).setSlot k (some { t with fuse := .opened, frame := some img })

/-- A lookup has its frame open: the line in the frame is checked, a refetch goes on, and otherwise the outcome is known. -/
def State.frameLook (s : State) (k : Nat) (t : Slot) (img : FrameImg) : Option State :=
  if (s.victimOf t.line).isSome || s.child k then none
  else if t.refetch then s.refetchKnown k t img
  else match s.victimCheck k t img with
    | none => none
    | some s =>
      if s.child k then some s
      else match s.slot k with
        | some t => some (s.frameKnown k t (t.frame.getD img))
        | none => some s

/-- The next candidate of an unrecoverable frame, or its end (R197). -/
def State.nextCand (s : State) (k : Nat) (t : Slot) : Option State :=
  if s.child k then none
  else match t.cands with
    | [] =>
      let f := t.frameKey
      let s := s.err rStoErr 5 2 .p t.finder 0 (stoDetail f t.aux)
      some ((s.hardFault f voidFrame).updSlot k (fun t => { t with fuse := .no, aux := 0 }))
    | c :: r =>
      match s.filterFind (regionNo c) with
      | some _ =>
        (s.recallLine k c .hlc .frame none 5).map (fun s => s.updSlot k (fun t => { t with cands := r }))
      | none => some ((s.poisonIn c).updSlot k (fun t => { t with cands := r, aux := t.aux + 1 }))

/-! ### The end of a recall (R107, R125) -/

def State.parentFrame (s : State) (t : Slot) (img : Nat → FrameImg → FrameImg) : State :=
  match t.forSlot with
  | some j => s.updSlot j (fun u => { u with frame := u.frame.map (img u.frameKey) })
  | none => s

/-- What a recall leaves when every answer is in: data returned, or the state before lending; HP when the holder is
dead and nobody else supplied the line (R127). -/
def State.recallDone (s : State) (k : Nat) (t : Slot) : State :=
  let lost := t.deadMet && t.got.isNone
  let s := if lost && t.aux != 5 then
      ({ (s.err rHomErr 3 1 .p none (lineAddr t.line)) with
        home := { s.home with poisoned := satInc s.home.poisoned 0xffffffff } }).cancelLine t.line else s
  let st := if t.got.isSome then HState.hd else if lost then .hp else t.hs.unlent
  let d := t.got.getD (t.copy.getD 0)
  let p := s.placeOf t.line
  let port := (t.forSlot.bind s.slot).bind Slot.finder
  match t.aux, t.src with
  | 0, _ => (s.parentFrame t (fun _ _ => s.frameAt p t.line st d)).freeSlot k
  | 4, _ =>
    let f := p.frame
    let c := fun (s : State) => s.err rStoErr 5 3 .c none (lineAddr t.line) (stoDetail f 0)
    let put := fun (s : State) (g : FrameImg) =>
      ((s.writeFrame f g).parentFrame t (fun _ _ => g)).freeSlot k
    if t.got.isSome then put (c s) (s.frameAt p t.line .hd d)
    else
      let r := s.integLoss f t.line (if lost then .hd else t.hs) ((t.forSlot.bind s.slot).bind (·.frame) |>.getD voidFrame)
      put r.2 r.1
  | 5, _ =>
    if t.got.isSome then (s.setSlot k (some { t with phase := .place })).dramOut k t.line d
    else
      let s := (s.poisonIn t.line).freeSlot k
      match t.forSlot with
      | some j => s.updSlot j (fun u => { u with aux := u.aux + 1 })
      | none => s
  | 2, .way w =>
    let s := if t.got.isSome then (s.wayWrite w .hd d true).err rWpcErr 4 0 .c port (lineAddr t.line)
      else ((s.cancelLine t.line).wayWrite w .hp 0 true).err rWpcErr 4 1 .p port (lineAddr t.line)
    s.freeSlot k
  | 6, .way w =>
    let s := s.dropWay w
    if t.got.isSome || lost then
      (s.setSlot k (some { t with phase := .place })).updSlot k (fun t => { t with todo := [.alloc st true d true] })
    else s.freeSlot k
  | _, .way w =>
    let bad := (s.way w).dataBad && (s.way w).dirty
    let s := s.setSlot k (some { t with phase := .place, todo := [] })
    let s := if t.got.isSome || lost then s.putData k t st (if lost then 0 else d)
      else if bad then (s.err rWpcErr 4 1 .p port (lineAddr t.line)).makeHp k t
      else s.wayState w st
    s.updSlot k (fun t => { t with todo := t.todo ++ [.cleanWay w true] })
  | _, _ => s.freeSlot k

/-! ### Flows end (R115, R117 to R119, R127) -/

/-- The line the transaction works on: the waypoint copy when there is one now (R121), else what was read. -/
def State.current (s : State) (t : Slot) : HState × Line :=
  match s.wayOf t.line with
  | some w => ((s.way w).hstate, (s.way w).data)
  | none => (t.hs, t.copy.getD 0)

/-- A holder is dead and nobody supplied the line (R127 step 2). -/
def Slot.lostToDead (t : Slot) : Bool := t.deadMet && t.hs.lent && t.got.isNone && !t.keptS && !t.forwarded

def State.deadLine (s : State) (k : Nat) (t : Slot) : State :=
  let s := { s with home := { s.home with poisoned := satInc s.home.poisoned 0xffffffff } }
  let s :=
    match t.kind with
    | .wrPtl => (s.setBit rHomErr 1).logEvent 3 0x82 .p t.logPort (lineAddr t.line)
    | _ => s.err rHomErr 3 1 .p none (lineAddr t.line)
  let s := s.updSlot k (fun t => { t with phase := .place, granted := true })
  (s.makeHp k t).replyBad t stPoison

/-- The state column of the reads of a lent line. -/
def Slot.afterShared (t : Slot) (hs : HState) : HState := if t.gotDirty then .hd else hs.unlent

/-- Maintenance: the frame follows, and DRAM where the line was newer (R174). -/
def State.maintActs (s : State) (k : Nat) (t : Slot) (acts : List Act) : State :=
  s.updSlot k (fun t => { t with todo := t.todo ++ acts })

/-- The park frame has to be written when a line of a park slot is invalidated: the data is newer, or the frame reads as lent
(R218). -/
def State.parkNewer (s : State) (t : Slot) : Bool :=
  t.gotDirty || t.hs.lent || (s.wayOf t.line).any (fun w => (s.way w).dirty)

def State.maintResolve (s : State) (k : Nat) (t : Slot) (hs : HState) (d : Line) : State :=
  let park := (s.placeOf t.line).park.isSome
  let newer := t.gotDirty || hs == .hd || hs == .hld
  let d := if t.gotDirty then t.got.getD d else d
  let held := t.src != .dram || (s.wayOf t.line).isSome || t.gotDirty
  let s := s.updSlot k (fun t => { t with aux := if held then 0 else 4 })
  match t.kind with
  | .mClean =>
    if hs == .hp || !held then s
    else
      let st := if park then HState.hd else .hc
      let s := match s.wayOf t.line with
        | some w => s.putWay w ({ s.way w with hstate := st, data := d }.setDirty false)
        | none => s
      s.maintActs k t ((if newer && !park then [Act.writeDram d] else []) ++ [.fixFrame st d])
  | .mInval =>
    if !held then s
    else if hs == .hp then
      s.maintActs k t [.fixFrame (if park then .hp else .hi) 0, .dropLine] |> fun s => if park then s else s.poisonIn t.line
    else if park then
      s.maintActs k t ((if s.parkNewer t then [Act.fixFrame .hd d] else []) ++ [.dropLine])
    else s.maintActs k t [.fixFrame .hi 0, .dropLine]
  | _ =>
    if !held then s
    else if hs == .hp then
      s.maintActs k t [.fixFrame (if park then .hp else .hi) 0, .dropLine] |> fun s => if park then s else s.poisonIn t.line
    else if park then
      s.maintActs k t ((if s.parkNewer t then [Act.fixFrame .hd d] else []) ++ [.dropLine])
    else s.maintActs k t ((if newer then [Act.writeDram d] else []) ++ [.fixFrame .hi 0, .dropLine])

/-- A write whose data is poisoned: that of a lay-by entry was logged when the entry issued (R86); the entry of R283 has a
code that the manual does not give. -/
def State.badWrite (s : State) (t : Slot) : State :=
  if t.portOrg then s
  else
    let f := s.fresh
    f.2.logEvent 9 (f.1 % 256) .p t.logPort (lineAddr t.line)

/-- Every answer is in and the data is there: answer, grant and placement by R115. -/
def State.resolve (s : State) (k : Nat) (t : Slot) : State :=
  let o := s.newOrder
  let t := { t with putNo := o.1 }
  let s := o.2.updSlot k (fun t => { t with putNo := o.1 })
  if t.kind == .lineRecall then s.recallDone k t
  else if t.deadMet && s.wide && !t.forwarded then s.haltSlot k t
  else if t.poisoned then s.integOwn k t
  else if t.lostToDead && t.kind != .wrFull then s.deadLine k t
  else if t.hs == .hp && t.dram == .got then s.hpAnswer k t
  else
    let c := s.current t
    let hs := c.1
    let d := if t.gotDirty then t.got.getD c.2 else c.2
    let s := s.updSlot k (fun t => { t with phase := .place, granted := true })
    let alloc := fun (s : State) =>
      if t.src == .frame && s.bit rWpcCtrl 13 then s.maintActs k t [.alloc hs false d false] else s
    let owned := fun (s : State) =>
      if t.gotDirty then (if t.forwarded then s.putState k t .hld c.2 else s.putData k t .hld d)
      else if hs.lent then alloc s
      else s.putState k t hs.lend d
    let readEnd := fun (s : State) =>
      if t.hs.lent then
        if t.gotDirty then s.putData k t .hd d else s.putState k t hs.unlent d
      else if t.src == .dram then s.putState k t .hc d
      else alloc s
    State.frameIdle (k := k) <| match t.kind with
    | .rdShared =>
      if t.hs.lent then
        let s := if t.forwarded then s else s.reply t true stOk grS d
        readEnd (s.grant t grS)
      else if t.condOk && s.bit rHomCtrl 10 then
        ((s.reply t true stOk grE d).grant t grE).putState k t hs.lend d
      else readEnd ((s.reply t true stOk grS d).grant t grS)
    | .rdUnique =>
      let s := (if t.forwarded then s else s.reply t true stOk (if t.gotDirty then grM else grE) d).grant t
        (if t.gotDirty then grM else grE)
      owned s
    | .upgrade =>
      if t.condOk then ((s.reply t false stOk grE 0).grant t grE).putState k t hs.lend d
      else
        let s := (if t.forwarded then s else s.reply t true stOk (if t.gotDirty then grM else grE) d).grant t
          (if t.gotDirty then grM else grE)
        owned s
    | .rdOnce => readEnd (if t.forwarded then s else s.reply t true stOk grI d)
    | .rdRsv => readEnd (if t.forwarded then s else s.reply t true stOk grI d)
    | .atomic =>
      let n := atomBytes t.atomSize
      let old := lineNat d (offOf t.addr) n
      let v := atomOperands t.atomOp t.atomSize t.data
      let new := atomResult t.atomOp (8 * n) old v.1 v.2
      let d := mergeLine d (natLine new (offOf t.addr) n) (byteMask (offOf t.addr) n)
      (s.reply t true stOk grI (natLine old 0 n)).putData k t .hd d
    | .wrPtl =>
      if t.badData then (((s.badWrite t)).makeHp k t).reply t false stPoison grI 0
      else (s.reply t false stOk grI 0).putData k t .hd (mergeLine d t.data t.mask)
    | .wrCond => (s.reply t false stOk grI 0).putData k t .hd (mergeLine d t.data t.mask)
    | .wrFull =>
      if t.badData then (((s.badWrite t).cancelLine t.line).putData k t .hp 0).reply t false stPoison grI 0
      else (s.reply t false stOk grI 0).putData k t .hd t.data
    | .evictClean =>
      let s := s.reply t false stOk grI 0
      if hs.lent && !t.crossed then s.putState k t hs.unlent d else s
    | .prefetch => s.putState k t .hc d
    | .mClean => s.maintResolve k t hs d
    | .mInval => s.maintResolve k t hs d
    | .mCleanInval => s.maintResolve k t hs d
    | .lockFill => s.updSlot k (fun t => { t with hs := if hs == .hi then .hc else hs, copy := some d })
    | _ => s

/-! ### The end of a slot -/

/-- The result of a maintenance operation (R186), and its line for a DMA range (R281). -/
def State.maintEnd (s : State) (t : Slot) : State :=
  match t.kind with
  | .mClean | .mInval | .mCleanInval =>
    match t.org with
    | .maint => s.maintDone t.aux
    | _ => s.reply t false stOk grI 0
  | .lockFill => if s.wp.maintBusy && t.hs != .hp then s.maintDone 0 else s
  | .writeBack => match t.org with | .maint => s.maintDone 0 | _ => s
  | _ => s

/-- A slot with nothing left to do is freed; one whose transaction a forwarded answer closed keeps its tag for the answers
still outstanding (R118). -/
def State.finish (s : State) (k : Nat) (t : Slot) : State :=
  if t.snpOut == 0 then ((s.freeSlot k).maintEnd t).filterDrop t
  else (s.setSlot k (some { t with phase := .closing })).maintEnd t

/-! ### Region recalls (R107) -/

/-- The lines of a region that are lent. -/
def State.lentIn (s : State) (region : Nat) : List Nat :=
  ((List.range 32).map (region * 32 + ·)).filter (fun x => (s.homeCopy x).st.lent)

/-- Start the recall of the region of a filter entry; none while no slot is free. -/
def State.regionRecall (s : State) (key : Nat) : Option State :=
  match s.fent key with
  | none => none
  | some f =>
    let line := f.region * 32
    (s.takeSlot (sliceOf line) .snoop).map (fun r =>
      let o := r.2.newOrder
      let s := o.2.setFent key (some { f with recalling := true })
      let s := s.count 0x15 { addr := some (lineAddr line) }
      let s := s.cancelRsv (lineAddr line) 4096 o.1 (fun _ => true)
      let t := { Slot.blank .regionRecall .self line with
        order := o.1, regNo := o.1, fkey := key, snpOp := opRegionInv, phase := .gather }
      let live := s.liveMask (f.presence &&& s.cachingMask)
      let s := forEach (fun i s => s.markSnooped (line + i) (maskLinks live)) (s.lentIn f.region) s
      s.snoopSend r.1 t (f.presence &&& s.cachingMask))

/-- The recall ends when every link has answered and every line has its state: the entry is freed. A region that a dead link
held goes to the recovery instead (R127). -/
def State.regionDone (s : State) (k : Nat) (t : Slot) : State :=
  let s := s.freeSlot k
  if t.deadMet then
    match s.fent t.fkey with
    | some f =>
      let dead := (maskLinks f.presence).filter (fun l => !(s.link l).state.alive)
      let s := s.setFent t.fkey (some { f with recalling := false })
      { s with home := { s.home with recovering := s.home.recovering ++ dead.map (fun l => (l, t.fkey)) } }
    | none => s
  else s.setFent t.fkey none

/-- The work that a region's slot has on its present line: acts, an open frame, a child. None when there is none. -/
def State.lineWork (s : State) (k : Nat) (t : Slot) : Option (Option State) :=
  match t.todo with
  | a :: _ => some (s.runAct k t a)
  | [] =>
    if s.child k || t.wrImg.isSome then some none
    else if t.fuse != .no then some (some (s.frameClose k))
    else none

/-- Go on with a line of the region. -/
def Slot.onLine (t : Slot) (line : Nat) : Slot :=
  { t with line := line, phase := .lookup, hs := .hi, src := .dram, copy := none, granted := false, poisoned := false }

/-- A region recall goes on (R107): each line received is placed as HD; when every link has answered, the lines that are
still lent return to their state before lending. -/
def State.regionStep (s : State) (k : Nat) (t : Slot) : Option State :=
  match s.lineWork k t with
  | some r => r
  | none =>
    match t.buf with
    | e :: r =>
      let t := { t with line := e.1, buf := r }
      some ((s.setSlot k (some t)).putData k t .hd e.2)
    | [] =>
      if t.snpOut != 0 then none
      else if t.deadMet then (if t.victims.isEmpty then some (s.regionDone k t) else none)
      else if t.condOk then
        match t.lines with
        | line :: r => some (s.setSlot k (some { t.onLine line with lines := r }))
        | [] => if t.victims.isEmpty then some (s.regionDone k t) else none
      else some (s.setSlot k (some { t with condOk := true, lines := s.lentIn (regionNo t.line) }))

/-! ### Dead-agent recovery of a region (R127 step 3) -/

/-- The recovery of a region ends: the dead link's bit is cleared. -/
def State.deadEnd (s : State) (k : Nat) (t : Slot) : State :=
  let s := s.freeSlot k
  let s := { s with home := { s.home with recovering := s.home.recovering.filter (· != (t.agent, t.fkey)) } }
  match s.fent t.fkey with
  | some f => s.setFent t.fkey (some { f with
      presence := f.presence &&& ~~~ (linkBit t.agent)
      owner := if f.owner == some t.agent then none else f.owner })
  | none => s

/-- Every survivor has answered for the line: it becomes HC, or HD with returned data; otherwise it is poisoned. -/
def State.deadLineDone (s : State) (k : Nat) (t : Slot) : State :=
  let s := s.setSlot k (some { t with granted := false })
  if t.gotDirty then s.putData k t .hd (t.got.getD 0)
  else if t.keptS then s.putState k t .hc (t.copy.getD 0)
  else
    let s := { s with home := { s.home with poisoned := satInc s.home.poisoned 0xffffffff } }
    (s.err rHomErr 3 1 .p none (lineAddr t.line)).makeHp k t

/-- The recovery of a region goes on: the next lent line is looked up and asked for. -/
def State.deadStep (s : State) (k : Nat) (t : Slot) : Option State :=
  match s.lineWork k t with
  | some r => r
  | none =>
    if t.snpOut != 0 then none
    else if t.granted then some (s.deadLineDone k t)
    else match t.lines with
      | [] => if t.victims.isEmpty then some (s.deadEnd k t) else none
      | line :: r =>
        let o := s.newOrder
        some (o.2.setSlot k (some { t.onLine line with
          lines := r, order := o.1, keptS := false, got := none, gotDirty := false, deadMet := false }))

/-- Take a region into recovery: its lent lines are gone through one by one. -/
def State.deadStart (s : State) (l key : Nat) : Option State :=
  match s.fent key with
  | none => some { s with home := { s.home with recovering := s.home.recovering.filter (· != (l, key)) } }
  | some f =>
    let base := f.region * 32
    (s.takeSlot (sliceOf base) .snoop).map (fun r =>
      let o := r.2.newOrder
      o.2.setSlot r.1 (some { Slot.blank .deadRegion .self base with
        order := o.1, regNo := o.1, agent := l, lines := s.lentIn f.region, phase := .gather
        fkey := key }))

/-! ### The driver -/

def State.paveStart (s : State) (k : Nat) (t : Slot) : Option State :=
  let g := granuleOf t.line
  if !(s.unpaved t.line) then some (s.orderSlot k t)
  else if s.cry.paving.contains g || s.cry.paveWait.contains g then none
  else if s.cry.paving.length < 4 then some { s with cry := { s.cry with paving := s.cry.paving ++ [g] } }
  else some { s with cry := { s.cry with paveWait := s.cry.paveWait ++ [g] } }

/-- One internal step of a slot, none when it waits for an event. -/
def State.advance (s : State) (k : Nat) (t : Slot) : Option State :=
  if t.fuse == .opened && t.frame.isNone && t.wrImg.isNone
      && (t.phase == .lookup || t.phase == .place || !t.todo.isEmpty) then s.nextCand k t
  else match t.phase with
    | .chained => none
    | .regionWait => none
    | .pave => s.paveStart k t
    | .lookup =>
      match t.fuse with
      | .no => if s.child k then none else s.lookup k t
      | .waiting => s.frameTry k t
      | .opened =>
        match t.frame with
        | some img => s.frameLook k t img
        | none => none
      | .reading => none
    | .gather =>
      if t.kind == .regionRecall then s.regionStep k t
      else if t.kind == .deadRegion then s.deadStep k t
      else if (t.snpOut == 0 && t.snpRest == 0 || t.forwarded) && (t.dram == .no || t.dram == .got) && !(s.child k) then
        some (s.resolve k t)
      else none
    | .place =>
      match t.todo with
      | a :: _ => s.runAct k t a
      | [] => if t.victims.isEmpty && t.dram != .reading && !(s.child k) then some (s.finish k t) else none
    | .closing => if t.snpOut == 0 then some ((s.freeSlot k).filterDrop t) else none

/-- Start the next owed region recall whose region has no open transaction (R72, R339). -/
def State.dueStart (s : State) : Option State :=
  s.home.recallDue.findSome? (fun key =>
    let s' := { s with home := { s.home with recallDue := serase key s.home.recallDue } }
    match s.fent key with
    | none => some s'
    | some f => if f.recalling then some s' else if s.regionOpen f.region != 0 then none else s'.regionRecall key)

/-! ### Maintenance by register (R174 to R177, R186) -/

/-- The line address in WPC_MAINT_ADDR. -/
def State.maintAddr (s : State) : Nat := (s.reg rMaintLo).toNat + s.fld rMaintHi 0 8 * 2 ^ 32

/-- A transaction of a maintenance operation, in a slot of the maintenance pool. -/
def State.maintSlot (s : State) (kind : TxKind) (line : Nat) (todo : List Act) : Option State :=
  (s.takeSlot (sliceOf line) .maint).map (fun r =>
    r.2.register r.1 { Slot.blank kind .maint line with todo := todo })

/-- A lock-fill: the lowest-numbered unlocked way of 12 to 15 (R175); an empty way that is still locked is not refilled
(R176; log entry 42). -/
def State.maintLock (s : State) (line : Nat) : Option State :=
  let ways := [12, 13, 14, 15].map (wayKey (wpSet line))
  match s.wayOf line with
  | some w =>
    if (s.way w).lock then some (s.maintDone 0)
    else match ways.find? (fun k => !(s.way k).lock) with
      | some k => s.maintSlot .lockFill line [.lockWay k]
      | none => some (s.maintDone 1)
  | none =>
    match ways.find? (fun k => !(s.way k).lock) with
    | some k => s.maintSlot .lockFill line [.lockWay k]
    | none => some (s.maintDone 1)

/-- An operation by address. -/
def State.maintLine (s : State) (op line : Nat) : Option State :=
  if op = 1 then s.maintSlot .mClean line []
  else if op = 2 then s.maintSlot .mInval line []
  else if op = 3 then s.maintSlot .mCleanInval line []
  else if op = 4 then s.maintLock line
  else match s.wayOf line with
    | some w => some ((s.putWay w { s.way w with lock := false }).maintDone 0)
    | none => some (s.maintDone 4)

/-- An operation by set and way. -/
def State.maintWay (s : State) (op key : Nat) : Option State :=
  let y := s.way key
  if op = 10 then some ((s.putWay key { y with lock := false }).maintDone 0)
  else if !y.valid then some (s.maintDone 0)
  else s.maintSlot .writeBack (wayLine key y) [if op = 8 then .cleanWay key false else .evictWay key]

/-- Start an operation; none while no slot is free. -/
def State.maintStart (s : State) (v : Word) : Option State :=
  let op := field v 0 4
  let a := s.maintAddr
  if 1 ≤ op ∧ op ≤ 5 then
    if s.memBytes ≤ a then some (s.maintDone 2)
    else if s.offline then some (s.maintDone 4)
    else s.maintLine op (a / 128)
  else if 8 ≤ op ∧ op ≤ 10 then s.maintWay op (wayKey (field v 4 12) (field v 16 4))
  else some (s.maintDone 2)

def State.maintTry (s : State) : Option State :=
  match s.wp.maintWait with
  | some v => { s with wp := { s.wp with maintWait := none } }.maintStart v
  | none => none

/-- Clean and invalidate the next line that a resize owes (R185), in a slot of the maintenance pool. -/
def State.resizeTry (s : State) : Option State :=
  match s.prk.resizeDue with
  | [] => none
  | line :: r =>
    (s.takeSlot (sliceOf line) .maint).map (fun x =>
      ({ x.2 with prk := { x.2.prk with resizeDue := r } }).register x.1 (Slot.blank .mCleanInval .self line))

/-- Line moves of a park, unpark or relocation that are under way (R220). -/
def State.moves (s : State) (k : Nat) : Nat :=
  (s.slotList.filter (fun e => e.2.kind == .parkMove && e.2.agent == k)).length

/-- Start the next line move of a park slot's operation, in ascending order and with at most 32 in flight (R220, R221). -/
def State.moveStart (s : State) (k : Nat) (p : PSlot) : Option State :=
  if !(p.pstate == .parking || p.pstate == .unparking) || decide (16384 ≤ p.next) || decide (32 ≤ s.moves k)
      || s.saf.safe != .normal then none
  else
    let s' := s.setPslot k { p with next := p.next + 1 }
    if p.moved.contains p.next then some s'
    else
      let line := p.region * 16384 + p.next
      (s'.takeSlot (sliceOf line) .dma).map (fun r =>
        r.2.register r.1 { Slot.blank .parkMove .self line with agent := k })

def State.moveTry (s : State) : Option State := s.prk.slots.findSome? (fun e => s.moveStart e.1 e.2)

/-- The first slot that can go on, an accepted maintenance operation, an owed recall, the work of a resize, or a line move. -/
def State.pulse (s : State) : Option State :=
  match s.slotList.findSome? (fun e => s.advance e.1 e.2) with
  | some s => some s
  | none => ((s.maintTry.orElse (fun _ => s.dueStart)).orElse (fun _ => s.resizeTry)).orElse (fun _ => s.moveTry)

/-- Advance until every slot waits. -/
def settleFuel : Nat → State → State
  | 0, s => s
  | n + 1, s =>
    match s.pulse with
    | some s => settleFuel n s
    | none => s

/-- Every slot advances until it waits for an event; a command starts at most this many internal steps. Work of the home uses
its voted fields (R335, log entry 23). -/
def State.settle (s : State) : State :=
  let s := s.haltDue
  if s.pulse.isSome then s.withVotes usesHome (settleFuel 4096) else s

/-! ### Snoop answers (R111, R114, R127) -/

/-- One link's final answer to the snoop of a slot: it kept the line in S, or it is dead. The rest of a wide domain's
mask is snooped when the owner answers I (R111). -/
def State.ackOne (s : State) (k : Nat) (t : Slot) (l : Nat) (kept dead : Bool) : State :=
  let t := { t with
    snpOut := t.snpOut &&& ~~~ (linkBit l), keptS := t.keptS || kept, deadMet := t.deadMet || dead }
  if t.snpOut == 0 && t.snpRest != 0 && !t.keptS && !t.forwarded && t.got.isNone then
    s.snoopSend k { t with snpRest := 0 } t.snpRest
  else s.setSlot k (some (if t.snpOut == 0 then { t with snpRest := 0 } else t))

/-- Requests of a link for a line that have not been ordered are crossed (R120). -/
def State.markCrossed (s : State) (l line : Nat) (evictOnly : Bool) : State :=
  let hit := fun (op : BitVec 6) => op == opEvictClean || (op == opUpgrade && !evictOnly)
  let s := { s with queues := s.queues.map (fun (e : Nat × Queue) =>
    if e.1 / 512 == l then
      (e.1, { e.2 with ents := e.2.ents.map (fun (q : QEnt) =>
        if hit q.op && lineOf q.addr == line then { q with crossed := true } else q) })
    else e) }
  let u := s.link l
  let s := s.setLink l { u with held := u.held.map (fun (q : HeldReq) =>
    if hit q.op && lineOf q.h.addr == line then { q with crossed := true } else q) }
  forEach (fun (e : Nat × Slot) s =>
    match e.2.org with
    | .port p _ =>
      if p / 64 == l && e.2.line == line && (e.2.kind == .upgrade && !evictOnly || e.2.kind == .evictClean)
          && (!e.2.busy || e.2.phase == .pave) then
        s.setSlot e.1 (some { e.2 with crossed := true })
      else s
    | _ => s) s.slotList s

/-! ### Loss and quarantine of a link (R71, R74, R126 to R128) -/

/-- Requests still in a queue, and what the link's ports hold besides accepted writes. -/
def State.dropPorts (s : State) (l : Nat) : State :=
  let s := { s with queues := s.queues.map (fun (e : Nat × Queue) => if e.1 / 512 == l then (e.1, Queue.init) else e) }
  State.trimPorts { s with ports := s.ports.map (fun (e : Nat × Port) =>
    if e.1 / 64 == l then
      let gone := e.2.layby.filter (fun b => b.op == opWrCond && !b.issuing)
      (e.1, { e.2 with
        layby := e.2.layby.filter (fun b => !(b.op == opWrCond && !b.issuing)), released := e.2.released + gone.length
        fences := [], fence := none, rsv := none })
    else e) }

/-- Filter entries that name a link, in ascending order of slice, set and way. -/
def State.filterOfLink (s : State) (l : Nat) : List Nat :=
  (s.filterValid.filter (fun e => e.2.presence.getLsbD l)).map Prod.fst

/-- Every snoop still outstanding to a dead link counts as answered SNP_ACK with state I (R127). -/
def State.deadAcks (s : State) (l : Nat) : State :=
  forEach (fun (e : Nat × Slot) (s : State) =>
    match s.slot e.1 with
    | some t => if t.snpOut.getLsbD l then s.ackOne e.1 t l false true else s
    | none => s) s.slotList s

/-- A transaction of the home that waits for the answer of a link (R128). -/
def Slot.waitsOn (l : Nat) (t : Slot) : Bool :=
  t.phase == .gather && t.snpOut.getLsbD l && !t.forwarded && t.kind != .lineRecall && t.kind != .deadRegion

/-- A dead caching link (R127, R128): in a domain that is halted already, what waits on the link completes. -/
def State.deadAgent (s : State) (l : Nat) : State :=
  if s.wide then
    if s.saf.safe == .normal || s.saf.drainBusy then
      ((s.err rHomErr 3 2 .d (linkPort l) 0).haltDomain 3 3 (Slot.waitsOn l)).deadAcks l
    else (s.haltWaits (Slot.waitsOn l)).deadAcks l
  else
    let due := (s.filterOfLink l).map (fun k => (l, k))
    let s : State := { s with home := { s.home with
      recovering := s.home.recovering.filter (fun e => e.1 != l) ++ due } }
    s.deadAcks l

/-- The link is lost and enters a state (R71): a posted write that arrived whole still enters the lay-by. -/
def State.loseLink (s : State) (l : Nat) (st : LinkState) : State :=
  let u := s.link l
  let caching := u.roleCaching || !(s.filterOfLink l).isEmpty
  let s := s.setLink l { u with
    state := st, assembly := none, replayBuf := [], replayRun := 0, reqTags := [], snpTags := [], wbOpen := []
    wbDone := [], held := (u.held.filter (fun e => e.op == opWbFull || e.op == opWrFull || e.op == opWrPtl)).map (fun e =>
      { e with paid := false })
    txWait := [], nakOut := false, pwrOut := none, waking := false, deepWake := false, detaching := false
    devTags := u.devTags.filter (fun d => !d.timedOut) }
  let s := s.dropPorts l
  let s := if caching && (s.saf.safe == .normal || s.saf.safe == .halted || s.saf.drainBusy) then s.deadAgent l else s
  s.settle

/-- Quarantine with the error bit of its cause (R74). -/
def State.quarantine (s : State) (l bit : Nat) : State :=
  if (s.link l).state == .quarantine then s
  else (((s.err (rLnkErr l) 1 bit .alarm (linkPort l) 0).raise 9 l).loseLink l .quarantine)

/-- A claim on lines that the link does not hold (R122): kind 0 WB_FULL, 1 SNP_DATA, 2 snoop answer state. -/
def State.claim (s : State) (l kind line : Nat) : State :=
  let s := { s with home := { s.home with claimLink := l, claimKind := kind } }
  (s.err rHomErr 3 3 .info (linkPort l) (lineAddr line)).quarantine l 8

/-- The link enters DEAD (R60, R63). -/
def State.linkDead (s : State) (l bit : Nat) : State :=
  (((s.err (rLnkErr l) 1 bit .info (linkPort l) 0).raise 9 l).loseLink l .dead)

end Sys2Proof.Machine
end

