-- ==== Sys2Proof/Machine/Links.lean ====
section
/-! DEFINITION. Causeway links: replay (R46, R47), tolls (R49 to R52), training and link states (R60 to R64), power states
(R65 to R68), presence and quarantine (R71, R73 to R75), and LNK_CTRL (R76). -/
namespace Sys2Proof.Machine

/-! ### Flits -/

/-- The device's toll advertisement by class (R50). -/
def devAdv (c : Nat) : Nat :=
  if c = 0 then 480 else if c = 1 then 0 else if c = 2 then 64 else if c = 3 then 144 else 8

def classes5 : List Nat := [0, 1, 2, 3, 4]

/-- Send what waits for the link, and the CMPs of WB_FULLs that it lets go (R48, R137). -/
def State.flush (s : State) (l : Nat) : State := (s.flushLink l).wbFlush l

/-- A LINK flit leaves, with the current acknowledgment (R40, R44). -/
def State.linkOut (s : State) (l op : Nat) (params : List Nat) : State := s.emit (.linkFlit l op params (s.link l).txAck)

/-- MSG flits are resent, with the current acknowledgment (R44, R46). -/
def State.resendAll (s : State) (l : Nat) (fs : List TxFlit) : State :=
  forEach (fun (r : TxFlit) s => s.emit (.resend l r.seq (s.link l).txAck)) fs s

/-- Apply the acknowledgment of a flit (R44, R46): an advance ends the run of replays. -/
def Link.ack (k : Link) (f : Flit) : Link :=
  if flitAckVld f && k.replayBuf.any (fun r => r.seq == flitAck f) then
    { k with replayBuf := (k.replayBuf.dropWhile (fun r => r.seq != flitAck f)).tail, replayRun := 0 }
  else k

def State.sendNak (s : State) (l : Nat) : State :=
  let k := s.link l
  (s.setLink l { k with nakOut := true }).linkOut l 1 [k.rxExp % 256, k.rxExp / 256]

/-- A flit whose CRC fails (R42, R45). -/
def State.crcFail (s : State) (l : Nat) : State :=
  let s := (s.count 0x04 { link := some l }).err (rLnkErr l) 1 0 .c (linkPort l) 0
  if (s.link l).nakOut then s else s.sendNak l

/-- Entry to RETRAIN (R60, R63): the fifth within a tick lowers the rate, narrows the link or ends it. -/
def State.enterRetrain (s : State) (l : Nat) : State :=
  let was := s.link l
  let s := s.err (rLnkErr l) 1 2 .c (linkPort l) 0
  let k := { s.link l with
    state := .retrain, retrainsTick := was.retrainsTick + 1, retrainCnt := satInc was.retrainCnt 255, pwrOut := none
    waking := false, replayRun := 0 }
  if was.retrainsTick ≠ 4 then s.setLink l k
  else if 0 < was.rate then s.setLink l { k with rate := was.rate - 1, rateLow := was.rateLow + 1 }
  else if !was.x4 then
    let hi := decide (was.laneGood.toNat % 16 ≠ 15) && decide (was.laneGood.toNat / 16 = 15)
    s.setLink l { k with x4 := true, lanesHi := hi }
  else (s.setLink l k).linkDead l 3

/-- Resend from a position of the replay buffer (R46); the eighth replay without an advance retrains (R47). -/
def State.replayFrom (s : State) (l : Nat) (from_ : TxFlit → Bool) : State :=
  let k := s.link l
  let out := k.replayBuf.dropWhile (fun r => !(from_ r))
  let s := s.resendAll l out
  let s := (s.count 0x05 { link := some l }).err (rLnkErr l) 1 1 .c (linkPort l) 0
  let s := s.setLink l { s.link l with replayRun := (s.link l).replayRun + 1 }
  if 8 ≤ (s.link l).replayRun then s.enterRetrain l else s

/-- Return every freed slot in one TOLL flit (R51). -/
def State.sendToll (s : State) (l : Nat) : State :=
  let k := s.link l
  let ret := classes5.foldl (fun t c => t.upd c (fun n => (n + k.rxFreed.get c) % 4096)) k.rxRet
  (s.setLink l { k with rxRet := ret, rxFreed := .zero }).linkOut l 0
    (classes5.flatMap (fun c => [ret.get c % 256, ret.get c / 256]))

/-- Slots of the receive buffer are freed; sixteen freed slots of a class go back at once (R51). -/
def State.freeSlots (s : State) (l c n : Nat) : State :=
  let k := s.link l
  let k := { k with rxHeld := k.rxHeld.upd c (fun h => h - n), rxFreed := k.rxFreed.upd c (fun h => h + n) }
  let s := s.setLink l k
  if k.state == .active && decide (16 ≤ k.rxFreed.get c) then s.sendToll l else s

/-- Toll returns from the partner (R51); a return beyond the slots sent is a violation (R74). -/
def State.takeToll (s : State) (l : Nat) (f : Flit) : State :=
  let k := s.link l
  let cnt := fun c => (flitParam f (2 * c) + 256 * flitParam f (2 * c + 1)) % 4096
  let diff := fun c => (cnt c + 4096 - k.txRetSeen.get c) % 4096
  if classes5.any (fun c => decide (k.txSent.get c < k.txRet.get c + diff c)) then s.quarantine l 5
  else
    let k := classes5.foldl (fun k c => { k with
      txAvail := k.txAvail.upd c (fun n => n + diff c)
      txRet := k.txRet.upd c (fun n => n + diff c)
      txRetSeen := k.txRetSeen.upd c (fun _ => cnt c) }) k
    (s.setLink l k).flush l

/-- The link carries flits. -/
def State.carrying (s : State) (l : Nat) : Bool := (s.link l).state == .active

/-- What every received IDLE or LINK flit does: CRC check and acknowledgment (R41 to R44). -/
def State.rxCommon (s : State) (l : Nat) (f : Flit) (ok : Flit → Bool) (body : State → State) : State :=
  if !(s.carrying l) then s
  else if !(flitCrcOk f) then s.crcFail l
  else if flitType f = 2 ∧ 4 < flitLinkOp f then s.quarantine l 5
  else if !(ok f) then s
  else body (s.setLink l ((s.link l).ack f))

def isLinkOp (n : Nat) (f : Flit) : Bool := flitType f == 2 && flitLinkOp f == n

/-! ### Training (R60 to R64) -/

/-- The device's links may train: after boot step 6 (R369), and not in the stop state of a failed boot. -/
def State.linksOn (s : State) : Bool := s.power.boot == .run

/-- Full training starts at SYNC: sequence numbers, replay buffers and tolls start over (R63). -/
def Link.toSync (k : Link) : Link :=
  { k with
    state := .sync, rateLow := 0, txSeq := 0, rxExp := 0, rxAckVld := false, nakOut := false, replayBuf := []
    replayRun := 0, assembly := none, txAvail := .zero, txSent := .zero, txRet := .zero, txRetSeen := .zero
    rxHeld := .zero, rxFreed := .zero, rxRet := .zero, lastParam := none, paramSame := 0, paramSent := 0
    txWait := [], held := k.held.map (fun e => { e with paid := false })
    devTags := k.devTags.filter (fun d => !d.timedOut), detaching := false }

/-- A training attempt fails: SYNC again, and DEAD at the third in a row (R60). -/
def State.trainFail (s : State) (l : Nat) : State :=
  let k := s.link l
  if k.trainFails + 1 < 3 then s.setLink l { k.toSync with trainFails := k.trainFails + 1 }
  else ((s.setLink l { k with trainFails := 0 }).err (rLnkErr l) 1 9 .info (linkPort l) 0).linkDead l 3

def popcount (n : BitVec 8) : Nat := ((List.range 8).filter (fun i => n.getLsbD i)).length

def halfGood (lanes : BitVec 8) (hi : Bool) : Bool :=
  if hi then lanes.toNat / 16 == 15 else lanes.toNat % 16 == 15

/-- Width by R62: x4 flag and upper half, none when no half is good. -/
def chooseWidth (lanes : BitVec 8) (x4only : Bool) : Option (Bool × Bool) :=
  if lanes.toNat = 255 ∧ x4only = false then some (false, false)
  else if halfGood lanes false then some (true, false)
  else if halfGood lanes true then some (true, true)
  else none

/-- A request that R74 forbids: it follows DETACH_REQ, its stream is beyond `stream_cnt`, or its tag is in use. -/
def State.reqBad (s : State) (l : Nat) (h : Req) : Bool :=
  let k := s.link l
  k.detaching || decide (k.streamCntM1 < h.stream.toNat) || k.reqTags.contains h.tag.toNat

/-- LNK_CTRL.`caching` bits that are 1 (R64, R108). -/
def State.cachingBits (s : State) : Nat := (links16.filter (fun l => s.bit (rLnkCtrl l) 1)).length

/-- Links with an effective caching role. -/
def State.cachingCnt (s : State) : Nat :=
  (links16.filter (fun l => (s.link l).roleCaching && ((s.link l).state.alive || (s.link l).state == .eq))).length

/-- Effective role, and whether a caching role was refused (R64, R108, R129). -/
def State.linkRole (s : State) (l : Nat) (partner : Bool) : Bool × Bool :=
  let want := s.bit (rLnkCtrl l) 1 && partner
  let wideDet := decide (14 ≤ l) && s.home.wide == some true
  let ninth := s.home.wide == some false
    && decide (8 ≤ (links16.filter (fun j => j != l && (s.link j).roleCaching
        && ((s.link j).state.alive || (s.link j).state == .eq))).length)
  if decide (14 ≤ l) && decide (8 < s.cachingBits) then (false, true)
  else if !want || s.mgt.shoulder then (false, false)
  else if wideDet || ninth then (false, true)
  else (true, false)

/-- The TS_PARAM exchange is complete (R61, R62, R64); equalization starts from the link's preset
(R299, R301), or from what was stored before Standby (R357). -/
def State.paramDone (s : State) (l : Nat) (p : TsParam) : State :=
  let k := s.link l
  let role := s.linkRole l (p.role.getLsbD 0)
  let peer := p.role.getLsbD 1
  let lanes := k.laneGood &&& p.laneOk
  let cfgRate := min 2 (s.fld (rLnkCtrl l) 2 2)
  let bad := p.protoVer != 1 || p.streamCnt == 0 || decide (64 < p.streamCnt.toNat)
    || (peer && decide (p.req.toNat < 18)) || (role.1 && decide (p.snp.toNat < 16)) || decide (p.rsp.toNat < 16)
    || decide (p.dat.toNat < 36) || decide (p.ctl.toNat < 4)
  match bad, chooseWidth lanes (s.bit (rLnkCtrl l) 4) with
  | false, some w =>
    (s.setLink l { k with
      state := .eq, rate := min cfgRate p.maxRate.toNat, x4 := w.1, lanesHi := w.2, roleCaching := role.1
      roleForced := role.2, streamCntM1 := p.streamCnt.toNat - 1, 
      eqPreset := if k.eqKeep then k.eqPreset else Config.factoryEq l + s.trimOf 0 l, eqKeep := false
      adv := ⟨p.req.toNat, p.snp.toNat, p.rsp.toNat, p.dat.toNat, p.ctl.toNat⟩ }).emit (.train l 3)
  | _, _ => s.trainFail l

/-- Unless a vote of LNK_CTRL stopped the device (R335). -/
def State.paramNext (s : State) (l : Nat) (p : TsParam) : State := if s.saf.safe == .stop then s else s.paramDone l p

/-- The link becomes ACTIVE after a full training: tolls take the advertised values (R63), the partner's role bit 1 counts
from now on (R69), a detachable link that may not cache in the class latched meanwhile does not (R64, R108), and the first
caching link latches the domain class (R108). -/
def State.trained (s : State) (l : Nat) : State :=
  let k := s.link l
  let role := if k.roleCaching then s.linkRole l true else (false, k.roleForced)
  let k := { k with roleCaching := role.1, roleForced := role.2 }
  let s := s.setLink l { k with
    state := .active, txAvail := k.adv, trainFails := 0
    peerWindows := (k.lastParam.map (fun p => p.role.getLsbD 1)).getD k.peerWindows }
  if k.roleCaching && s.home.wide.isNone then
    { s with home := { s.home with wide := some (decide (8 < s.cachingBits)) } }
  else s

def State.trainedNext (s : State) (l : Nat) : State := if s.saf.safe == .stop then s else s.trained l

/-- SYNC is complete in RETRAIN: the width falls to x4 when lanes fail (R63). -/
def Link.retrainWidth (k : Link) (lanes : BitVec 8) : Link :=
  if k.x4 then { k with laneGood := lanes }
  else match chooseWidth lanes false with
    | some w => { k with laneGood := lanes, x4 := w.1, lanesHi := w.2 }
    | none => { k with laneGood := lanes }

/-! ### Power states (R65 to R68) -/

/-- Nothing unacknowledged, waiting or owed (R65). -/
def Link.quiet (k : Link) : Bool :=
  k.replayBuf.isEmpty && k.txWait.isEmpty && k.wbDone.isEmpty && classes5.all (fun c => k.rxFreed.get c == 0)

def sleepState (n : Nat) : LinkState := if n = 1 then .sleepLight else .sleepDeep

/-- Enter a sleep state; a message that is ready wakes the link at once (R67). -/
def State.enterSleep (s : State) (l n : Nat) : State :=
  let k := s.link l
  let s := s.setLink l { k with state := sleepState n, pwrOut := none }
  if k.txWait.isEmpty && k.wbDone.isEmpty && k.replayBuf.isEmpty then s else s.wakeLink l

def State.askPower (s : State) (l n : Nat) : State :=
  (s.setLink l { s.link l with pwrOut := some n }).linkOut l 2 [n]

/-- `light_idle` and `deep_idle` of LNK_PWR in fc (R76). -/
def State.lightFc (s : State) (l : Nat) : Nat := s.fld (rLnkPwr l) 0 16 * 64
def State.deepFc (s : State) (l : Nat) : Nat := s.fld (rLnkPwr l) 16 16 * 1536

/-! ### LNK_CTRL (R60, R75, R76, R108) -/

/-- Leave QUARANTINE, DISABLED, ABSENT or DEAD for DETECT; CW14 and CW15 for DETACHED while their presence pin is high. -/
def State.toDetect (s : State) (l : Nat) : State :=
  let k := s.link l
  let s := s.setLink l { k with
    state := k.startState l, trainFails := 0, retrainsTick := 0, present := decide (14 ≤ l) && !k.prsntHigh }
  { s with home := { s.home with dead := s.home.dead &&& ~~~ (linkBit l) } }

/-- A write of LNK_CTRL. -/
def State.lnkCtrlWrite (s : State) (l : Nat) (v : Word) : State :=
  let o := rLnkCtrl l
  let st := (s.link l).state
  let was := s.cachingBits
  let v' := if st == .quarantine then (v &&& ~~~ 1) ||| (s.reg o &&& 1) else v
  let s := (s.writeReg o v').guardVotes usesLinks
  if s.saf.safe == .stop then s else
  let now := s.cachingBits
  let s := match s.home.wide with
    | some w => if decide (8 < now) != w && decide (8 < was) != decide (8 < now) then s.err rHomErr 3 6 .info none 0 else s
    | none => s
  let s :=
    if v.getLsbD 0 then (if st == .disabled then s.toDetect l else s)
    else if st == .quarantine then s
    else if st == .disabled then s
    else if st.alive then s.loseLink l .disabled
    else s.setLink l { s.link l with state := .disabled }
  let s := if v.getLsbD 5 && st == .quarantine then
      (if s.bit o 0 then s.toDetect l else (s.toDetect l).setLink l { (s.toDetect l).link l with state := .disabled })
    else s
  if v.getLsbD 6 && v.getLsbD 0 && st == .active then s.enterRetrain l else s

/-! ### Meanings: training -/

/-- LINK_DETECT_POLL (R60). -/
def execLinkDetectPoll (l : Fin 16) (lanes : BitVec 8) (s : State) : Res :=
  let l := l.val
  let k := s.link l
  let ok := s.linksOn && k.state == .detect && (decide (l < 14) || !k.prsntHigh)
  State.done (if ok && decide (4 ≤ popcount lanes) then
      s.setLink l { k.toSync with trainFails := 0, present := true }
    else s)

/-- ABSENT_TIMEOUT (R60). -/
def execAbsentTimeout (l : Fin 16) (s : State) : Res :=
  let l := l.val
  State.done (if s.linksOn && (s.link l).state == .detect && decide (l < 14) then
    s.setLink l { s.link l with state := .absent } else s)

/-- SYNC_COMPLETE (R36, R60, R62, R63). -/
def execSyncComplete (l : Fin 16) (laneOk : BitVec 8) (s : State) : Res :=
  let l := l.val
  let k := s.link l
  State.done (match k.state with
    | .sync =>
      match chooseWidth laneOk false with
      | some _ => s.setLink l { k with state := .param, laneGood := laneOk, lastParam := none, paramSame := 0 }
      | none => s.trainFail l
    | .retrain => s.setLink l (k.retrainWidth laneOk)
    | _ => s)

/-- SYNC_TIMEOUT (R60). -/
def execSyncTimeout (l : Fin 16) (s : State) : Res :=
  State.done (if (s.link l.val).state == .sync then s.trainFail l.val else s)

/-- PARAM_TIMEOUT (R60). -/
def execParamTimeout (l : Fin 16) (s : State) : Res :=
  State.done (if (s.link l.val).state == .param then s.trainFail l.val else s)

/-- EQ_TIMEOUT (R60). -/
def execEqTimeout (l : Fin 16) (s : State) : Res :=
  let k := s.link l.val
  State.done (if k.state == .eq then
      if 0 < k.rate then s.setLink l.val { k with rate := k.rate - 1 } else s.trainFail l.val
    else s)

/-- RETRAIN_TIMEOUT (R60, R71). -/
def execRetrainTimeout (l : Fin 16) (s : State) : Res :=
  State.done (if (s.link l.val).state == .retrain then s.linkDead l.val 3 else s)

/-- TS_SYNC (R60). -/
def execTsSync (l : Fin 16) (s : State) : Res :=
  State.done (if (s.link l.val).state == .active then s.enterRetrain l.val else s)

/-- TS_PARAM (R61): the device sends one of its own for each that it receives (log entry 58). -/
def execTsParam (l : Fin 16) (p : TsParam) (s : State) : Res :=
  let l := l.val
  let k := s.link l
  State.done (if k.state == .param then
      let same := k.lastParam == some p
      let n := if same then k.paramSame + 1 else 1
      let m := if same then k.paramSent + 1 else 1
      let s := (s.setLink l { k with lastParam := some p, paramSame := n, paramSent := m }).emit (.train l 1)
      if 8 ≤ n ∧ 16 ≤ m then (s.guardVotes usesLinks).paramNext l p else s
    else s)

/-- TS_EQ (R60): the receiver adapts; what it settles on is not stated. -/
def execTsEq (l : Fin 16) (s : State) : Res :=
  let k := s.link l.val
  State.done (if k.state == .eq || k.state == .retrain then
      let f := s.fresh
      f.2.setLink l.val { k with eqPreset := Int.ofNat f.1 }
    else s)

/-- TS_DONE (R60, R63, R108). -/
def execTsDone (l : Fin 16) (s : State) : Res :=
  let l := l.val
  let k := s.link l
  State.done (match k.state with
    | .eq => (s.guardVotes usesLinks).trainedNext l
    | .retrain => ((s.setLink l { k with state := .active }).resendAll l k.replayBuf).flush l
    | _ => s)

/-- BLOCK_LOCK_LOSS (R60). -/
def execBlockLockLoss (l : Fin 16) (s : State) : Res :=
  State.done (if (s.link l.val).state == .active then s.enterRetrain l.val else s)

/-! ### Meanings: power states -/

/-- LIGHT_IDLE_TIMEOUT (R65, R66). -/
def execLightIdleTimeout (l : Fin 16) (s : State) : Res :=
  let l := l.val
  let k := s.link l
  let deep := s.deepFc l
  State.done (if k.state == .active && k.quiet && k.pwrOut.isNone && s.lightFc l != 0 then
      s.askPower l (if deep ≠ 0 ∧ deep ≤ s.lightFc l then 2 else 1)
    else s)

/-- DEEP_IDLE_TIMEOUT (R66). -/
def execDeepIdleTimeout (l : Fin 16) (s : State) : Res :=
  let l := l.val
  let k := s.link l
  State.done (if s.deepFc l = 0 ∨ k.quiet = false ∨ k.pwrOut.isSome then s
    else if k.state == .active then s.askPower l 2
    else if k.state == .sleepLight then (s.setLink l { k with deepWake := true }).wakeLink l
    else s)

/-- LINK_WAKE_RECEIVED (R68). -/
def execLinkWakeReceived (l : Fin 16) (s : State) : Res :=
  let k := s.link l.val
  State.done (if k.state.asleep then s.wake.setLink l.val { k with waking := true } else s)

/-- LINK_WAKE_DONE (R66, R68). -/
def execLinkWakeDone (l : Fin 16) (s : State) : Res :=
  let l := l.val
  let k := s.link l
  State.done (if k.state.asleep && k.waking then
      let s := s.setLink l { k with state := .active, waking := false, deepWake := false }
      if k.deepWake && k.quiet then s.askPower l 2 else s.flush l
    else s)

/-- RING_INSERT_RESERVE (R110): the stop's reservation holds until it has inserted. -/
def execRingInsertReserve (stop : Fin 24) (s : State) : Res :=
  State.done { s.emit (.ringReserve stop.val) with ring := sinsert stop.val s.ring }

/-! ### Meanings: presence and detach -/

/-- PRESENCE_ASSERT (R60, R73, R75). -/
def execPresenceAssert (l : Fin 16) (s : State) : Res :=
  let l := l.val
  let k := s.link l
  State.done (if l < 14 then s
    else
      let s := s.setLink l { k with prsntHigh := false, debounce := false }
      if k.state == .detached then s.toDetect l
      else s.setLink l { s.link l with present := true })

/-- PRESENCE_DEASSERT (R73). -/
def execPresenceDeassert (l : Fin 16) (s : State) : Res :=
  let k := s.link l.val
  State.done (if l.val < 14 then s
    else s.setLink l.val { k with prsntHigh := true, present := false, debounce := k.state != .quarantine })

/-- SURPRISE_DETACH (R71, R73; log entry 58). -/
def execSurpriseDetach (l : Fin 16) (s : State) : Res :=
  let l := l.val
  let k := s.link l
  State.done (if decide (l < 14) || !k.debounce || k.state == .quarantine || k.state == .detached
      || k.state == .disabled then s
    else
      let s := s.setLink l { k with debounce := false }
      (((s.err (rLnkErr l) 1 4 .info (linkPort l) 0).raise 9 l).loseLink l .detached))

/-! ### Meanings: LNK_CTRL -/

/-- QUAR_RELEASE (R75). -/
def execQuarRelease (l : Fin 16) (v : Word) (s : State) : Res := (s.ctl (·.lnkCtrlWrite l.val v)).done

/-- RETRAIN (R76). -/
def execRetrain (l : Fin 16) (v : Word) (s : State) : Res := (s.ctl (·.lnkCtrlWrite l.val v)).done

/-- LINK_ENABLE (R60). -/
def execLinkEnable (l : Fin 16) (v : Word) (s : State) : Res := (s.ctl (·.lnkCtrlWrite l.val v)).done

/-- LINK_DISABLE (R60, R71, R75). -/
def execLinkDisable (l : Fin 16) (v : Word) (s : State) : Res := (s.ctl (·.lnkCtrlWrite l.val v)).done

end Sys2Proof.Machine
end

