-- ==== Sys2Proof/Machine/Requests.lean ====
section
/-! DEFINITION. Requests from a link partner: the checks at enqueue (R29, R59, R69, R139, R263, R264), pool entries and
budgets (R77 to R81), lay-bys with merging and forwarding (R86 to R88, R91, R140), and policing (R95). -/
namespace Sys2Proof.Machine

/-! ### Checks at enqueue -/

/-- Peer device window of an address: the lowest-numbered valid one that holds it, and its target link (R69). -/
def State.pdw (s : State) (a : Nat) : Option Nat :=
  let m := a / 2 ^ 20
  ((List.range 32).find? (fun n =>
    s.bit (rPdwBase n) 31 && decide (s.fld (rPdwBase n) 0 20 ≤ m) && decide (m ≤ s.fld (rPdwLimit n) 0 20))).map
    (fun n => s.fld (rPdwBase n) 20 4)

/-- Access domain of a port (R263). -/
def State.portAd (s : State) (p : Nat) : Nat := s.fld (rPortAd (p / 8)) (4 * (p % 8)) 4

/-- A domain's read or write mask names a window. -/
def State.adNames (s : State) (ad : Nat) (write : Bool) (w : Nat) : Bool :=
  let o := if write then (if w < 32 then rAdWrLo ad else rAdWrHi ad) else (if w < 32 then rAdRdLo ad else rAdRdHi ad)
  s.bit o (w % 32)

/-- One valid window, named in each mask that is asked for, contains every byte (R263). -/
def State.adPermits (s : State) (ad : Nat) (rd wr : Bool) (a n : Nat) : Bool :=
  s.windows.any (fun w => s.winHolds w a n && (!rd || s.adNames ad false w) && (!wr || s.adNames ad true w))

/-- The masks an opcode is checked against (R263). -/
def opMasks (op : BitVec 6) : Bool × Bool :=
  if op = opAtomic ∨ op = opWrCond then (true, true)
  else if op = opRdUnique ∨ op = opUpgrade ∨ op = opWrFull ∨ op = opWrPtl ∨ op = opWbFull then (false, true)
  else if op = opFence then (false, false)
  else (true, false)

/-- A byte of the range lies in the tag area of a valid integrity window (R264). -/
def State.inTagArea (s : State) (a n : Nat) : Bool :=
  s.windows.any (fun w => s.winInteg w &&
    (let t := s.tagArea w; decide (a < t.1 + t.2) && decide (t.1 < a + n)))

/-- Why a request is refused with BUS_ERR (R264). -/
inductive Refuse where
  /-- Region check: no window, or at or above the installed size. -/
  | region
  /-- Opcode or size check: logged with PRT code 0x83. -/
  | form
  | tagArea
  | domain
deriving DecidableEq, Repr

/-- The region check of one part, by address and size (R29, R69, R374). -/
def State.regionOk (s : State) (op : BitVec 6) (h : Req) (q : Nat × Nat) : Bool :=
  if op == opFence then true
  else match regionOf h.addr with
    | .memory => decide (q.1 + q.2 ≤ s.memBytes)
    | .device =>
      match s.pdw h.addr.toNat with
      | some l => (s.link l).peerWindows
      | none => false
    | .control => decide (ctlOffset h.addr < 0xD0000) || decide (0x400000 ≤ ctlOffset h.addr)

/-- The opcode check (R59). -/
def State.opcodeOk (s : State) (l : Nat) (op : BitVec 6) (h : Req) : Bool :=
  (!(opCaching op) || (s.link l).roleCaching)
    && (regionOf h.addr == .memory || op == opRdOnce || op == opWrFull || op == opWrPtl || op == opFence)

/-- The parts of a request as (address, size): two where a memory read or write crosses a line (R140). -/
def reqParts (op : BitVec 6) (h : Req) : List (Nat × Nat) :=
  let a := h.addr.toNat
  let n := h.sizeM1.toNat + 1
  if (op == opRdOnce || op == opWrPtl) && crosses h && regionOf h.addr == .memory then
    let lo := 128 - offOf h.addr
    [(a, lo), (a + lo, n - lo)]
  else [(a, n)]

/-- The first check that a part of a request fails, with the address it fails for (R140, R264). -/
def State.partCheck (s : State) (l p : Nat) (op : BitVec 6) (h : Req) (q : Nat × Nat) : Option (Refuse × Nat) :=
  let m := opMasks op
  if !(s.regionOk op h q) then some (.region, q.1)
  else if !(s.opcodeOk l op h) || !(sizeOk op h) then some (.form, h.addr.toNat)
  else if op == opFence then none
  else if s.inTagArea q.1 q.2 then some (.tagArea, q.1)
  else if !(s.adPermits (s.portAd p) m.1 m.2 q.1 q.2) then some (.domain, q.1)
  else none

/-- The checks at enqueue of every part (R140, R264). -/
def State.enqCheck (s : State) (l p : Nat) (op : BitVec 6) (h : Req) : List (Option (Refuse × Nat)) :=
  (reqParts op h).map (s.partCheck l p op h)

/-- The failures to log: a request of the wrong form fails once, otherwise each failing part. -/
def failures (rs : List (Option (Refuse × Nat))) : List (Refuse × Nat) :=
  match rs.filterMap id with
  | (.form, a) :: _ => [(.form, a)]
  | fs => fs

/-- Log or alarm of a refusal (R59, R139, R264). -/
def State.noteRefuse (s : State) (p : Nat) (h : Req) (r : Refuse × Nat) : State :=
  let at_ : Attr := { req := some (p, h.priv.toNat, h.tc.toNat), addr := some r.2 }
  match r.1 with
  | .region => s
  | .form => s.logEvent 2 0x83 .info (some p) h.addr.toNat
  | .tagArea => (s.cryAlarm 1 (some p) (BitVec.ofNat 40 r.2)).count 0x37 at_
  | .domain => (s.cryAlarm 0 (some p) (BitVec.ofNat 40 r.2)).count 0x37 at_

/-! ### Pool entries (R78, R79) -/

def State.portEnts (s : State) (p : Nat) : List QEnt :=
  ((List.range 8).map (fun tc => (s.queue (queueOf p tc)).ents)).flatten

/-- Shared pool entries held by all queues. -/
def State.sharedHeld (s : State) : Nat :=
  s.queues.foldl (fun n e => n + (e.2.ents.filter (fun q => !q.reserved)).length) 0

/-- Whether a port may take a pool entry: its queue's reserved one, a shared one, or neither and why. -/
inductive PoolGet where
  | reserved
  | shared
  | budget
  | short
deriving DecidableEq, Repr

def State.poolGet (s : State) (p tc : Nat) : PoolGet :=
  if !((s.queue (queueOf p tc)).ents.any (fun e => e.reserved)) then .reserved
  else if s.poolMax p ≤ (s.portEnts p).length then .budget
  else if 8192 ≤ s.sharedHeld then .short
  else .shared

/-- Whether the port may take `n` lay-by entries (R79, R86); a merge takes none (R87). -/
def State.laybyGet (s : State) (p n : Nat) : PoolGet :=
  if n = 0 then .shared
  else if s.laybyMax p < (s.port p).layby.length + n then .budget
  else if 2048 < s.ports.foldl (fun m e => m + e.2.layby.length) 0 + n then .short
  else .shared

def State.pushEnt (s : State) (q : Nat) (e : QEnt) : State :=
  let u := s.queue q
  (s.setQueue q { u with ents := u.ents ++ [e] }).count 0x08
    { req := some (q / 8, e.priv.toNat, q % 8), addr := some e.addr.toNat }

def State.pushAns (s : State) (q : Nat) (a : Ans) : State :=
  let u := s.queue q
  s.setQueue q { u with answers := u.answers ++ [a] }

/-- Answers that are DATA unless the home says otherwise (R115). -/
def opIsData (op : BitVec 6) : Bool :=
  op == opRdShared || op == opRdUnique || op == opRdOnce || op == opRdRsv || op == opAtomic || op == opUpgrade

def mkAns (id : Nat) (op : BitVec 6) (h : Req) (split : Bool) : Ans where
  id := id
  tag := h.tag
  priv := h.priv
  isData := opIsData op
  atom := op == opAtomic
  addr := h.addr.toNat
  size := h.sizeM1.toNat + 1
  split := split
  lo := none
  hi := none
  forwarded := false

def mkEnt (id : Nat) (op : BitVec 6) (h : Req) (slots : List MsgSlot) (part : Nat) (a n : Nat) : QEnt where
  id := id
  op := op
  tag := h.tag
  priv := h.priv
  addr := BitVec.ofNat 40 a
  size := n
  atomOp := h.atomOp
  atomSize := h.atomSize
  ops := slotsFrom 0 slots
  part := part
  busErr := false
  peer := none
  reserved := false
  crossed := false

/-- Push the parts of a queued request, each with its own pool entry; none when one is refused. -/
def pushParts (p tc : Nat) : List QEnt → State → PoolGet × State
  | [], s => (.shared, s)
  | e :: r, s =>
    match s.poolGet p tc with
    | .reserved => pushParts p tc r (s.pushEnt (queueOf p tc) { e with reserved := true })
    | .shared => pushParts p tc r (s.pushEnt (queueOf p tc) e)
    | .budget => (.budget, s)
    | .short => (.short, s)

/-! ### Lay-bys -/

/-- The write's data over two lines, chunk by chunk from its first chunk (R57, R140). -/
def writeData (op : BitVec 6) (h : Req) (slots : List MsgSlot) (upper : Bool) : Line :=
  if op = opWrFull ∨ op = opWbFull then slotsFrom 0 slots
  else
    let c := offOf h.addr / 16
    if upper then slotsFrom 0 (slots.drop (8 - c)) else slotsFrom c (slots.take (8 - c))

def mkLay (id : Nat) (op : BitVec 6) (h : Req) (slots : List MsgSlot) (upper : Bool) (a n : Nat) (dest : LbDest) :
    LbEnt where
  id := id
  op := op
  tag := h.tag
  tc := h.tc
  priv := h.priv
  addr := BitVec.ofNat 40 a
  size := n
  line := a / 128
  data := writeData op h slots upper
  mask := if op = opWrFull ∨ op = opWbFull then BitVec.allOnes 128 else byteMask (a % 128) n
  dest := dest
  issuing := false
  ecc := .clean

/-- The youngest entry takes a write of its line (R87); none is merged across a FENCE (R143). -/
def Port.mergeable (u : Port) (e : LbEnt) : Bool :=
  match u.layby.getLast? with
  | some y =>
    y.line == e.line && y.dest == .mem && y.op != opWrCond && !y.issuing && y.ecc != .uncorr
      && !(u.fences.any (fun f => decide (y.id < f)))
  | none => false

def Port.merge (u : Port) (e : LbEnt) : Port :=
  { u with
    layby := u.layby.dropLast ++ (u.layby.getLast?.map (fun y => { y with
      op := if e.op = opWrFull ∧ y.op = opWrPtl then opWrFull else y.op
      data := mergeLine y.data e.data e.mask, mask := y.mask ||| e.mask })).toList
    accepted := u.accepted + 1, merged := u.merged + 1 }

def LbEnt.attr (p : Nat) (e : LbEnt) : Attr := { req := some (p, e.priv.toNat, e.tc.toNat), addr := some e.addr.toNat }

/-- Accept a write into the lay-by, or merge it. -/
def State.layAccept (s : State) (p : Nat) (e : LbEnt) : State :=
  let u := s.port p
  if (e.op == opWrFull || e.op == opWrPtl) && e.dest == .mem && u.mergeable e then
    (s.setPort p (u.merge e)).count 0x0C (e.attr p)
  else (s.setPort p { u with layby := u.layby ++ [e], accepted := u.accepted + 1 }).count 0x0B (e.attr p)

/-- Lay-by entries that the parts of a write need; a part that merges needs none. -/
def State.layNeed (s : State) (p : Nat) (es : List LbEnt) : Nat :=
  match es with
  | [] => 0
  | e :: r => (if (e.op == opWrFull || e.op == opWrPtl) && e.dest == .mem && (s.port p).mergeable e then 0 else 1)
      + r.length

/-! ### Forwarding (R91) -/

/-- The bytes of a range that lay-by entries hold, the youngest first over older ones. -/
def fwdBytes : List LbEnt → Line × Mask → Line × Mask
  | [], a => a
  | e :: r, a => fwdBytes r (mergeLine a.1 e.data e.mask, a.2 ||| e.mask)

/-- The lay-by entries of a port for a line that were accepted before a request arrived. -/
def State.layBefore (s : State) (p line id : Nat) : List LbEnt :=
  (s.port p).layby.filter (fun e => e.dest == .mem && e.line == line && decide (e.id < id))

/-- A byte of the range comes from an entry whose codes show an uncorrectable error. -/
def fwdPoison (es : List LbEnt) (m : Mask) : Bool :=
  match es with
  | [] => false
  | e :: r =>
    let young := r.foldl (fun a x => a ||| x.mask) 0
    (e.ecc == .uncorr && decide (e.mask &&& m &&& ~~~ young ≠ 0)) || fwdPoison r m

/-- The answer that forwarding gives a queue entry, none when it does not apply. -/
def State.forwardOf (s : State) (p : Nat) (e : QEnt) : Option PartRes :=
  if e.op ≠ opRdOnce ∨ regionOf e.addr ≠ .memory ∨ e.busErr then none
  else
    let es := (s.layBefore p (lineOf e.addr) e.id).filter (fun x => x.op != opWrCond)
    let m := byteMask (offOf e.addr) e.size
    let f := fwdBytes es (0, 0)
    if es.isEmpty ∨ f.2 &&& m ≠ m then none
    else some ⟨if fwdPoison es m then stPoison else stOk, grI, f.1, 0⟩

/-- No request of the port behind an unanswered FENCE is dispatched (R143). -/
def Port.fenced (u : Port) (id : Nat) : Bool := u.fences.any (fun f => decide (f < id))

/-- Forward the head of a queue if its lay-by holds every byte. -/
def State.tryForward (s : State) (q : Nat) : Option State :=
  let p := q / 8
  match (s.queue q).ents with
  | [] => none
  | e :: r =>
    if (s.port p).fenced e.id then none
    else match s.forwardOf p e with
      | none => none
      | some res =>
        let s := s.setQueue q { s.queue q with ents := r }
        some ((s.answer q e.id e.part res).count 0x0D
          { req := some (p, e.priv.toNat, q % 8), addr := some e.addr.toNat })

/-! ### A request's way in -/

def isWriteOp (op : BitVec 6) : Bool := op == opWbFull || op == opWrFull || op == opWrPtl || op == opWrCond
def isPostedOp (op : BitVec 6) : Bool := op == opWbFull || op == opWrFull || op == opWrPtl

/-- A read of MGT_REPLY_FIFO or MGT_REPLY_STATUS (R324, R355). -/
def isReplyRead (a : Addr) : Bool :=
  regionOf a == .control && (ctlOffset a == rReplyFifo || ctlOffset a == rReplyStatus)

/-- The device answers a request HALTED: memory and device requests of a halted device, every request of a stopped
one (R128, R341), and during Standby entry and shutdown all but the reads of a reply (R324, R355). -/
def State.answersHalted (s : State) (op : BitVec 6) (h : Req) : Bool :=
  s.saf.safe == .stop || (s.saf.safe == .halted && op != opFence && regionOf h.addr != .control)
    || ((s.power.boot == .standbyEntry || s.power.boot == .shutdown)
      && !(op == opRdOnce && isReplyRead h.addr && s.stopping))

/-- What became of a request. -/
inductive Put where
  | placed (s : State)
  | refused (budget : Bool) (s : State)

def refuseOf (g : PoolGet) (p : Nat) (h : Req) (s : State) : Put :=
  .refused (g == .budget) (s.count (if g == .budget then 0x09 else 0x0A) { req := some (p, h.priv.toNat, h.tc.toNat) })

def State.destOf (s : State) (h : Req) : LbDest :=
  match regionOf h.addr with
  | .memory => .mem
  | .device => .peer ((s.pdw h.addr.toNat).getD 0)
  | .control => .control

/-- The lay-by entries of the parts of a write. -/
def State.layEnts (s : State) (op : BitVec 6) (h : Req) (slots : List MsgSlot) (id : Nat) : List LbEnt :=
  let ps := reqParts op h
  (List.range ps.length).map (fun i =>
    let q := ps.getD i (0, 0)
    mkLay id op h slots (i == 1) q.1 q.2 (s.destOf h))

/-- Place a posted write: lay-by entries, then CMP; a WB_FULL is answered when it is ordered (R77, R88). -/
def State.putWrite (s : State) (p : Nat) (op : BitVec 6) (h : Req) (slots : List MsgSlot) (id : Nat) : Put :=
  let es := s.layEnts op h slots id
  match s.laybyGet p (s.layNeed p es) with
  | .budget => refuseOf .budget p h s
  | .short => refuseOf .short p h s
  | _ =>
    let s := forEach (fun e s => s.layAccept p e) es s
    .placed (if op == opWbFull then s else s.sendCmp p h.tc.toNat h.tag stOk)

/-- The queue entries of the parts of a request; a part that fails a check is answered BUS_ERR (R140). -/
def State.queueEnts (s : State) (op : BitVec 6) (h : Req) (slots : List MsgSlot) (id : Nat)
    (rs : List (Option (Refuse × Nat))) : List QEnt :=
  let ps := reqParts op h
  let split := decide (1 < ps.length)
  (List.range ps.length).map (fun i =>
    let q := ps.getD i (0, 0)
    let bad := (rs.getD i none).isSome
    { mkEnt id op h slots (if split then i + 1 else 0) q.1 q.2 with
      busErr := bad
      peer := if regionOf h.addr == .device && op != opFence && !bad then s.pdw h.addr.toNat else none })

/-- Place a queued request (R77, R78, R140): a refused one takes a pool entry too, and no lay-by entry. -/
def State.putQueued (s : State) (p : Nat) (op : BitVec 6) (h : Req) (slots : List MsgSlot) (id : Nat)
    (rs : List (Option (Refuse × Nat))) : Put :=
  let tc := h.tc.toNat
  let es := s.queueEnts op h slots id rs
  let cond := op == opWrCond && (failures rs).isEmpty
  match pushParts p tc es s, if cond then s.laybyGet p 1 else .shared with
  | (.budget, _), _ => refuseOf .budget p h s
  | (.short, _), _ => refuseOf .short p h s
  | _, .budget => refuseOf .budget p h s
  | _, .short => refuseOf .short p h s
  | (_, s'), _ =>
    let s := forEach (fun r s => s.noteRefuse p h r) (failures rs) s'
    let s := s.pushAns (queueOf p tc) (mkAns id op h (decide (1 < es.length)))
    if cond then .placed (s.layAccept p (mkLay id op h slots false h.addr.toNat (h.sizeM1.toNat + 1) .mem))
    else .placed ((s.tryForward (queueOf p tc)).getD s)

/-- A posted write that a check refuses: it is answered at once and not accepted (R77, R140, R264). -/
def State.putRefused (s : State) (p : Nat) (h : Req) (rs : List (Option (Refuse × Nat))) : Put :=
  let tc := h.tc.toNat
  let s := forEach (fun r s => s.noteRefuse p h r) (failures rs) s
  .placed ((s.sendCmp p tc h.tag stBusErr).count 0x3B { req := some (p, h.priv.toNat, tc), addr := some h.addr.toNat })

/-- A FENCE that has been answered holds nothing back any more (R143). -/
def Port.unfence (u : Port) (id : Nat) : Port := { u with fences := u.fences.filter (· != id) }

/-- Answer a request HALTED (R128, R324, R341, R355). -/
def State.putHalted (s : State) (p : Nat) (op : BitVec 6) (h : Req) (id : Nat) : State :=
  if isPostedOp op then s.sendCmp p h.tc.toNat h.tag stHalted
  else
    let s := if op == opFence then s.setPort p ((s.port p).unfence id) else s
    s.pushAns (queueOf p h.tc.toNat) ((mkAns id op h false).giveUp stHalted)

/-- Place a request (R77, R264). -/
def State.putReq (s : State) (l : Nat) (op : BitVec 6) (h : Req) (slots : List MsgSlot) (id : Nat) : Put :=
  let p := l * 64 + h.stream.toNat
  let s := s.guardVotes usesDomains
  if s.answersHalted op h then .placed (s.putHalted p op h id)
  else
    let rs := s.enqCheck l p op h
    if isPostedOp op then
      if (failures rs).isEmpty then s.putWrite p op h slots id else s.putRefused p h rs
    else s.putQueued p op h slots id rs

/-! ### Held requests (R80, R81, R85, R95) -/

/-- A held request blocks a later one (R81). -/
def HeldReq.blocks (e r : HeldReq) : Bool :=
  e.h.stream == r.h.stream && (e.h.tc == r.h.tc || (isWriteOp e.op && isWriteOp r.op))

/-- The port of a held request of a link. -/
def HeldReq.port (e : HeldReq) (l : Nat) : Nat := l * 64 + e.h.stream.toNat

/-- Held requests that no earlier one blocks: the pushes of an fc. `seen` are the earlier ones. -/
def pushers : List HeldReq → List HeldReq → List HeldReq
  | _, [] => []
  | seen, e :: r => if seen.any (·.blocks e) then pushers (seen ++ [e]) r else e :: pushers (seen ++ [e]) r

/-- REQ slots held by the port's budget-refused requests and by those blocked behind them (R95); `seen` are the earlier
ones that count. -/
def excessSum (l p : Nat) : List HeldReq → List HeldReq → Nat
  | _, [] => 0
  | seen, e :: r =>
    if e.budget || seen.any (·.blocks e) then
      (if e.port l == p then 1 + e.slots.length else 0) + excessSum l p (seen ++ [e]) r
    else excessSum l p seen r

/-- The port's excess is noted (R95). -/
def State.noteExcess (s : State) (l p : Nat) : State :=
  if s.excessSlots < excessSum l p [] (s.link l).held then s.setPort p { s.port p with excess := true } else s

/-- Every port whose requests are held is looked at (R95). -/
def State.noteAllExcess (s : State) : State :=
  forEach (fun l s => forEach (fun (e : HeldReq) s => s.noteExcess l (e.port l)) (s.link l).held s) links16 s

/-- Keep a request in the link receive buffer. -/
def State.hold (s : State) (l : Nat) (e : HeldReq) : State :=
  let k := s.link l
  let held := if k.held.any (fun x => x.id == e.id) then k.held.map (fun x => if x.id == e.id then e else x)
    else k.held ++ [e]
  (s.setLink l { k with held := held }).noteExcess l (e.port l)

/-- Shared pool entries that the push of a request asks for; a budget-refused one asks for none (R78, R80). -/
def State.wantShared (s : State) (l : Nat) (e : HeldReq) : Nat :=
  let p := e.port l
  if isPostedOp e.op || s.answersHalted e.op e.h then 0
  else
    let own := if (s.queue (queueOf p e.h.tc.toNat)).ents.any (fun x => x.reserved) then 0 else 1
    let n := (reqParts e.op e.h).length - own
    if s.poolMax p < (s.portEnts p).length + own + n then 0 else n

/-- Lay-by entries that the push of a request asks for (R80, R86). -/
def State.wantLayby (s : State) (l : Nat) (e : HeldReq) : Nat :=
  let p := e.port l
  if !(isWriteOp e.op) || s.answersHalted e.op e.h || !((failures (s.enqCheck l p e.op e.h)).isEmpty) then 0
  else
    let n := if e.op == opWrCond then 1 else s.layNeed p (s.layEnts e.op e.h e.slots e.id)
    if s.laybyMax p < (s.port p).layby.length + n then 0 else n

/-- Entries that the pushes of the other links ask for, and the links that ask: what a push of link `l` competes with. -/
def State.rivals (s : State) (l : Nat) (want : Nat → HeldReq → Nat) : Nat × List (Nat × Nat) :=
  (links16.filter (· != l)).foldl (fun (a : Nat × List (Nat × Nat)) j =>
    let n := (pushers [] (s.link j).held).foldl (fun n e => n + want j e) 0
    if n = 0 then a else (a.1 + n, a.2 ++ [(j, 0)])) (0, [])

/-- Roundabouts of the shared pool and of the lay-by entries over link numbers (R80). -/
def poolArb : Nat := 760
def laybyArb : Nat := 761

/-- The turn of a link at a roundabout for entries that are short: none when they are not, otherwise whether the link
wins. -/
def State.turn (s : State) (arb l free need : Nat) (rivals : Nat × List (Nat × Nat)) : Option Bool :=
  if need = 0 ∨ need + rivals.1 ≤ free then none
  else some (rbWinner 16 (s.arb arb) ((l, 0) :: rivals.2) == some (l, 0))

def State.poolTurn (s : State) (l : Nat) (e : HeldReq) : Option Bool :=
  s.turn poolArb l (8192 - s.sharedHeld) (s.wantShared l e) (s.rivals l (fun j x => s.wantShared j x))

def State.laybyTurn (s : State) (l : Nat) (e : HeldReq) : Option Bool :=
  s.turn laybyArb l (2048 - s.ports.foldl (fun m x => m + x.2.layby.length) 0) (s.wantLayby l e)
    (s.rivals l (fun j x => s.wantLayby j x))

/-- A grant of a roundabout that arbitrated moves its pointer (R80, R82). -/
def State.turned (s : State) (arb l : Nat) (t : Option Bool) : State :=
  if t == some true then s.setArb arb (rbNext 16 l) else s

/-- A request leaves the link receive buffer: its slots are free (R49, R51), and a crossed mark follows it. -/
def State.moved (s : State) (l : Nat) (e : HeldReq) : State :=
  let k := s.link l
  let s := s.setLink l { k with held := k.held.filter (fun x => x.id != e.id) }
  let s := if e.paid then s.freeSlots l 0 (1 + e.slots.length) else s
  if e.crossed then
    let q := queueOf (e.port l) e.h.tc.toNat
    s.setQueue q { s.queue q with ents := (s.queue q).ents.map (fun x =>
      if x.id == e.id then { x with crossed := true } else x) }
  else s

/-- Push a request unless an earlier one still held blocks it (R81), or another link has the turn (R80). -/
def State.tryHeld (s : State) (l : Nat) (e : HeldReq) : State :=
  if ((s.link l).held.takeWhile (fun x => x.id != e.id)).any (·.blocks e) then s.hold l { e with budget := false }
  else
    let a := s.poolTurn l e
    let b := s.laybyTurn l e
    if a == some false || b == some false then s.hold l { e with budget := false }
    else match s.putReq l e.op e.h e.slots e.id with
      | .placed s => ((s.moved l e).turned poolArb l a).turned laybyArb l b
      | .refused bud s => s.hold l { e with budget := bud }

/-- A request arrives whole (R51, R54, R74): violations quarantine the link. -/
def State.reqIn (s : State) (l : Nat) (op : BitVec 6) (h : Req) (slots : List MsgSlot) : State :=
  let k := s.link l
  let n := 1 + slots.length
  if !(s.carrying l) then s
  else if s.reqBad l h then s.quarantine l 5
  else if devAdv 0 < k.rxHeld.get 0 + k.rxFreed.get 0 + n then s.quarantine l 6
  else
    let id := s.arrival
    let p := l * 64 + h.stream.toNat
    let s := { s with arrival := id + 1 }
    let s := s.setLink l { k with
      rxHeld := k.rxHeld.upd 0 (· + n)
      reqTags := k.reqTags ++ [h.tag.toNat]
      wbOpen := if op == opWbFull then k.wbOpen ++ [(h.tag.toNat, lineOf h.addr)] else k.wbOpen }
    let s := if op == opFence then s.setPort p { s.port p with fences := (s.port p).fences ++ [id] } else s
    s.tryHeld l ⟨op, h, slots, id, false, false, true⟩

/-- The waiting pushes of a link in the order of R80: lower port, then lower traffic class. -/
def pushOrder (es : List HeldReq) : List HeldReq :=
  ((List.range 512).map (fun i => es.filter (fun e => e.h.stream.toNat * 8 + e.h.tc.toNat == i))).flatten

/-- An entry freed by a pop goes first to a push into the same queue (R85). -/
def State.refill (s : State) (q : Nat) : State :=
  let l := q / 512
  match (pushers [] (s.link l).held).find? (fun e => !(isPostedOp e.op) && queueOf (e.port l) e.h.tc.toNat == q) with
  | some e => s.tryHeld l e
  | none => s

/-- What follows in the fc of a pop: a queue that is shorter than it was takes the push that waits for it (R85). -/
def State.refilled (s : State) (was : State) (q : Nat) : State :=
  if (s.queue q).ents.length < (was.queue q).ents.length then s.refill q else s

/-! ### Meanings -/

/-- RD_SHARED (R77, R115). -/
def execRdShared (l : Fin 16) (h : Req) (s : State) : Res := (s.reqIn l.val opRdShared h []).done

/-- RD_UNIQUE (R77, R115). -/
def execRdUnique (l : Fin 16) (h : Req) (s : State) : Res := (s.reqIn l.val opRdUnique h []).done

/-- RD_ONCE (R77, R91, R140). -/
def execRdOnce (l : Fin 16) (h : Req) (s : State) : Res := (s.reqIn l.val opRdOnce h []).done

/-- UPGRADE (R77, R115). -/
def execUpgrade (l : Fin 16) (h : Req) (s : State) : Res := (s.reqIn l.val opUpgrade h []).done

/-- WB_FULL (R77, R88). -/
def execWbFull (l : Fin 16) (h : Req) (slots : List MsgSlot) (s : State) : Res := (s.reqIn l.val opWbFull h slots).done

/-- EVICT_CLEAN (R77, R115). -/
def execEvictClean (l : Fin 16) (h : Req) (s : State) : Res := (s.reqIn l.val opEvictClean h []).done

/-- WR_FULL (R77, R87, R88). -/
def execWrFull (l : Fin 16) (h : Req) (slots : List MsgSlot) (s : State) : Res := (s.reqIn l.val opWrFull h slots).done

/-- WR_PTL (R77, R87, R88, R140). -/
def execWrPtl (l : Fin 16) (h : Req) (slots : List MsgSlot) (s : State) : Res := (s.reqIn l.val opWrPtl h slots).done

/-- ATOMIC (R77, R151). -/
def execAtomic (l : Fin 16) (h : Req) (slots : List MsgSlot) (s : State) : Res := (s.reqIn l.val opAtomic h slots).done

/-- RD_RSV (R77, R147). -/
def execRdRsv (l : Fin 16) (h : Req) (s : State) : Res := (s.reqIn l.val opRdRsv h []).done

/-- WR_COND (R77, R149). -/
def execWrCond (l : Fin 16) (h : Req) (slots : List MsgSlot) (s : State) : Res := (s.reqIn l.val opWrCond h slots).done

/-- FENCE (R77, R143). -/
def execFence (l : Fin 16) (h : Req) (s : State) : Res := (s.reqIn l.val opFence h []).done

/-- ENQUEUE_RETRY (R80, R81): the pushes that wait in a link's receive buffer are tried again. -/
def execEnqueueRetry (l : Fin 16) (s : State) : Res :=
  State.done (if s.live then forEach (fun e s => s.tryHeld l.val e) (pushOrder (pushers [] (s.link l.val).held)) s else s)

end Sys2Proof.Machine
end

