-- ==== Sys2Proof/Machine/Flags.lean ====
section
/-! DEFINITION. What a control space read returns (R374 to R376): the fields that hardware computes from the state, by
the register tables of each chapter, and the stored bits of every other register. -/
namespace Sys2Proof.Machine

/-- A word put together from values at their low bits. -/
def pack (fs : List (Nat × Nat)) : Word := BitVec.ofNat 32 (fs.foldl (fun n f => n + f.2 * 2 ^ f.1) 0)

def flag (b : Bool) : Nat := if b then 1 else 0

/-! ### GLB (R370) -/

def State.pwrState (s : State) : Nat := if s.power.boot == .standbyEntry then 2 else if s.power.idle then 1 else 0

def State.capEff (s : State) : Nat := min s.power.cap s.power.thermal

def State.readGlb (s : State) (r : Nat) : Word :=
  let w := s.power
  if r = 0 then pack [(0, 0x4400), (16, Config.stepping.toNat)]
  else if r = 8 then pack [(0, s.pwrState), (2, flag w.vbakOk), (3, flag w.onVbak), (4, w.level), (7, flag w.guard),
    (8, w.wakeCause)]
  else if r = 0xC then pack [(0, w.resetCause)]
  else if r = 0x10 then pack [(0, w.straps.i3ca.toNat), (2, flag w.straps.recover)]
  else if r = 0x14 then pack [(0, w.cap), (16, s.capEff)]
  else s.reg r

/-! ### LNK (R76) -/

def State.readLnk (s : State) (r : Nat) : Word :=
  if r < 0x1000 ∨ 0x2000 ≤ r then s.reg (0x10000 + r)
  else
    let k := s.link ((r - 0x1000) / 0x100)
    let f := r % 0x100
    if f = 4 then pack [(0, k.state.code), (4, k.rate), (6, flag k.x4), (7, flag k.lanesHi), (8, flag k.roleCaching),
      (9, flag k.roleForced), (10, flag k.peerWindows), (11, k.streamCntM1), (17, flag k.present), (24, k.retrainCnt)]
    else if f = 0x10 then pack [(0, k.adv.req), (10, k.adv.snp), (20, k.adv.rsp)]
    else if f = 0x14 then pack [(0, k.adv.dat), (10, k.adv.ctl)]
    else s.reg (0x10000 + r)

/-! ### PRT and the port pages (R98, R154, R351, R381) -/

/-- Queues whose reserved entry is held. -/
def State.reservedHeld (s : State) : Nat := (s.queues.filter (fun e => e.2.ents.any (fun q => q.reserved))).length

def State.laybyHeld (s : State) : Nat := s.ports.foldl (fun n e => n + e.2.layby.length) 0

def State.readPrt (s : State) (r : Nat) : Word :=
  if r = 4 then pack [(0, 8192 - s.sharedHeld), (14, s.reservedHeld)]
  else if r = 8 then pack [(0, 2048 - s.laybyHeld)]
  else s.reg (0x20000 + r)

/-- A request of the port is budget-refused. -/
def State.budgetStall (s : State) (p : Nat) : Bool :=
  (s.link (p / 64)).held.any (fun e => e.budget && e.h.stream.toNat == p % 64)

def State.readPage (s : State) (p r : Nat) : Word :=
  let u := s.port p
  if r < 0x10 ∧ r % 4 = 0 then
    pack [(0, (s.queue (queueOf p (r / 2))).ents.length), (16, (s.queue (queueOf p (r / 2 + 1))).ents.length)]
  else if r = 0x10 then pack [(0, u.layby.length), (8, flag u.missToken.isSome), (9, flag (!u.parked.isEmpty)),
    (10, flag (s.budgetStall p)), (11, s.portSlots p)]
  else if r = 0x14 then pack [(0, flag u.fence.isSome), (1, flag u.lossFlag), (2, flag u.rsv.isSome), (8, u.lossCnt)]
  else if 0x800 ≤ r ∧ r < 0xA00 then
    let n := (r - 0x800) / 8
    if s.bit (rCntCfg n) 8 then
      let v := (s.cnt n).value.toNat
      BitVec.ofNat 32 (if r % 8 = 0 then v else v / 2 ^ 32)
    else 0
  else 0

/-! ### HOM (R131) -/

def State.recoveryOn (s : State) : Bool :=
  !s.home.recovering.isEmpty || s.slotList.any (fun e => e.2.kind == .deadRegion)

def State.poolCnt (s : State) (slice : Nat) (p : Pool) : Nat := (s.poolFree slice p).length

def State.homStatus (s : State) : Word :=
  pack [(0, flag s.wide), (1, flag (s.saf.safe == .halted)), (2, flag s.recoveryOn), (3, s.cachingCnt)]

def State.readHom (s : State) (r : Nat) : Word :=
  if r = 4 then s.homStatus
  else if r = 0xC then pack [(0, s.home.dead.toNat)]
  else if r = 0x10 then pack [(0, s.home.claimLink), (4, s.home.claimKind)]
  else if r = 0x14 then pack [(0, s.home.poisoned)]
  else if 0x100 ≤ r ∧ r < 0x140 then
    let n := (r - 0x100) / 8
    if r % 8 = 0 then pack [(0, s.poolCnt n .demand), (8, s.poolCnt n .write), (16, s.poolCnt n .prefetch),
      (23, s.poolCnt n .snoop)]
    else if r % 8 = 4 then pack [(0, s.poolCnt n .dma), (6, s.poolCnt n .maint),
      (12, (s.filterValid.filter (fun e => e.1 / 4096 == n)).length)]
    else 0
  else s.reg (0x30000 + r)

/-! ### WPC, STO, PRK (R187, R214, R235) -/

def State.readWpc (s : State) (r : Nat) : Word :=
  if r = 4 then pack [(0, s.dirtyCnt), (13, s.lockedCnt)]
  else if r = 0x1C then pack [(0, s.wp.poolTokens)]
  else if r = 0x2C then pack [(0, flag s.wp.maintBusy), (1, s.wp.maintResult.toNat)]
  else s.reg (0x40000 + r)

/-- The item that STO_SEL selects. -/
def State.stoItem (s : State) : Word :=
  let d := s.die (s.fld rStoSel 0 3)
  let i := s.fld rStoSel 6 10
  match s.fld rStoSel 3 3 with
  | 0 => if i < 528 then BitVec.ofNat 32 (tget lifeDef d.life i).units else 0
  | 1 =>
    match tget noneDef d.detours i with
    | some w => pack [(0, w.slot), (14, w.pseg), (24, w.spare), (31, 1)]
    | none => 0
  | 2 =>
    match tget noneDef d.closure i with
    | some p => pack [(0, p.2), (14, p.1), (31, 1)]
    | none => 0
  | 3 =>
    match tget noneDef d.segMap i with
    | some g => pack [(0, g), (31, 1)]
    | none => 0
  | 4 =>
    if i < 512 then
      let a := tget laneDef d.lanes i
      pack [(0, a.start), (13, a.gap), (27, a.owed)]
    else 0
  | 5 => if i < 16 then pack ((List.range 32).map (fun b => (b, flag (d.closed.contains (32 * i + b))))) else 0
  | 6 => if i = 0 then pack (d.failedSpares.map (fun n => (n, 1))) else 0
  | _ => 0

def State.sparesMin (s : State) : Nat := (List.range 8).foldl (fun m d => min m (s.die d).freeSpares) 16

def State.readSto (s : State) (r : Nat) : Word :=
  let t := s.sto
  if r = 4 then pack [(0, t.epoch), (16, flag t.passBusy), (17, flag t.nextClear), (18, s.sparesMin)]
  else if r = 0xC then pack [(0, t.corr)]
  else if r = 0x20 then s.stoItem
  else if r = 0x30 then pack [(0, t.testOutcome.toNat), (2, t.testA), (13, t.testB)]
  else s.reg (0x50000 + r)

/-- The lowest line of a park slot whose move has not completed. -/
def PSlot.pointer (p : PSlot) : Nat := ((List.range 16384).find? (fun j => !(p.moved.contains j))).getD 0

def State.slotsUsed (s : State) : Nat :=
  (s.prk.slots.filter (fun e => e.2.pstate != .free && e.2.pstate != .closed)).length

def State.readPrk (s : State) (r : Nat) : Word :=
  let p := s.prk
  let e := s.pslot (s.fld rPrkSel 0 10)
  if r = 4 then pack [(0, p.size), (4, flag p.resize.isSome), (5, s.slotsUsed), (16, p.bootKind), (18, p.spill.length)]
  else if r = 0x10 then pack [(0, e.region), (16, e.pstate.code)]
  else if r = 0x14 then pack [(0, e.gen), (16, e.pointer)]
  else if r = 0x1C then s.reg (0x60000 + r) ||| pack [(18, flag p.vacBusy), (19, p.vacResult.toNat)]
  else if r = 0x24 then pack [(0, p.segOff.toNat)]
  else s.reg (0x60000 + r)

/-! ### MEM, CRY, DMA (R255, R276, R294) -/

def Chan.owedMax (c : Chan) : Nat := c.owed.foldl (fun m e => max m e.2) 0

def State.readMem (s : State) (r : Nat) : Word :=
  let m := s.mem
  if r = 4 then pack [(0, m.rate.toNat), (3, s.memCode), (5, m.density), (7, flag m.ranks2), (8, flag m.trained),
    (9, flag m.dbiOff)]
  else if r = 0x10 then pack [(0, m.eccCnt)]
  else if r = 0x14 then pack [(0, s.poisonUsed)]
  else if r = 0x1C then
    match tget noneDef m.poison (s.fld rPoisonSel 0 10) with
    | some l => pack [(0, l), (31, 1)]
    | none => 0
  else if 0x100 ≤ r ∧ r < 0x140 ∧ r % 4 = 0 then
    let c := s.chan ((r - 0x100) / 4)
    pack [(0, c.pstate.code), (3, c.refMult.toNat), (6, c.owedMax), (10, c.retrainCnt)]
  else s.reg (0x70000 + r)

def State.keyBits (s : State) : Nat := (List.range 16).foldl (fun n k => n + flag (s.slotKeys k).isSome * 2 ^ k) 0

def State.readCry (s : State) (r : Nat) : Word :=
  let c := s.cry
  if r = 4 then pack [(0, s.keyBits), (16, c.paving.length)]
  else if r = 0x10 then pack [(0, c.alarmPort), (10, flag c.alarmNoPort)]
  else if r = 0x14 then BitVec.ofNat 32 c.alarmAddr.toNat
  else if r = 0x18 then BitVec.ofNat 32 (c.alarmAddr.toNat / 2 ^ 32)
  else if r = 0x1C then BitVec.ofNat 32 s.kcv.toNat
  else if r = 0x20 then BitVec.ofNat 32 (s.kcv.toNat / 2 ^ 32)
  else s.reg (0x80000 + r)

/-- Descriptor tokens that no channel holds (R280). -/
def State.tokensFree (s : State) : Nat := 512 - s.dma.foldl (fun n e => n + e.2.tokens) 0

def State.activeBits (s : State) (lo : Nat) : Word :=
  pack ((List.range 32).map (fun i => (i, flag (s.dch (lo + i)).state.active)))

def State.readDma (s : State) (r : Nat) : Word :=
  if r = 4 then pack [(0, s.tokensFree)]
  else if r = 8 then s.activeBits 0
  else if r = 0xC then s.activeBits 32
  else if r < 0x1000 ∨ 0x2000 ≤ r then s.reg (0x90000 + r)
  else
    let n := (r - 0x1000) / 0x40
    let c := s.dch n
    let f := r % 0x40
    if f = 4 then pack [(0, c.state.code), (3, flag (decide (48 ≤ n))), (4, c.status.toNat), (7, c.reason.toNat),
      (11, c.taken.toNat), (15, flag c.shadow.isSome), (16, c.lastTag.toNat)]
    else if f = 0x18 then BitVec.ofNat 32 c.descAddr
    else if f = 0x1C then BitVec.ofNat 32 (c.descAddr / 2 ^ 32)
    else if f = 0x20 then BitVec.ofNat 32 c.resume
    else if f = 0x24 then c.doneCnt
    else s.reg (0x90000 + r)

/-! ### MGT, SAF, CNT (R325, R342, R352) -/

def PathSt.level (p : PathSt) : Nat := (p.session.map (·.level)).getD 0

/-- The image that runs (R303); none in shoulder mode entered at boot. -/
def State.runImage (s : State) : Option (List (BitVec 8)) := if s.mgt.running = 0 then s.mgt.slotA else s.mgt.slotB

def State.fwStatus (s : State) : Word :=
  let m := s.mgt
  let lv := fun (f : List (BitVec 8) → BitVec 8) =>
    match s.runImage with | some i => if m.shoulder then 0 else (f i).toNat | none => 0
  pack [(0, m.running), (1, flag m.trial), (2, flag m.fellBack), (3, flag m.shoulder), (4, m.shoulderCause),
    (8, lv Config.imageFwLevel), (16, lv Config.imageUcLevel), (24, m.host.level), (26, m.i3cp.level)]

/-- Telemetry item (R298). -/
def State.telemItem (s : State) (i : Nat) : Word := if i ≤ 21 then tget wordDef s.mgt.telem i else 0

def State.readMgt (s : State) (r : Nat) : Word :=
  let m := s.mgt
  if r = 4 then pack [(0, 128 - m.cmdFifo.length), (8, flag m.overflow)]
  else if r = 0x10 then
    (s.reg (0xA0000 + r) &&& 0x200) ||| pack [(0, m.replyFifo.length), (8, flag (decide (m.owedHost ≠ 0)))]
  else if r = 0x18 then m.evtHi
  else if r = 0x1C then (s.reg (0xA0000 + r) &&& 0x200) ||| pack [(0, m.evtFifo.length)]
  else if r = 0x24 then
    s.reg (0xA0000 + r) ||| pack [(2, flag (s.reg rIntrDmaLo != 0 || s.reg rIntrDmaHi != 0))]
  else if r = 0x34 then BitVec.ofNat 32 s.tick.toNat
  else if r = 0x38 then BitVec.ofNat 32 (s.tick.toNat / 2 ^ 32)
  else if r = 0x3C then s.fwStatus
  else if r = 0x44 then s.telemItem (s.fld rTelemSel 0 5)
  else s.reg (0xA0000 + r)

def State.readSaf (s : State) (r : Nat) : Word :=
  let f := s.saf
  if r = 0 then pack [(0, f.safe.code), (2, flag f.drainBusy), (3, f.overrunRun)]
  else if r = 8 then pack [(0, f.selfFailed.toNat)]
  else if r = 0xC then pack [(0, f.voteOff.toNat)]
  else if r = 0x10 then pack [(0, f.log.length), (11, f.lost)]
  else if r = 0x14 then BitVec.ofNat 32 f.cntC
  else if r = 0x18 then BitVec.ofNat 32 f.cntP
  else if r = 0x1C then BitVec.ofNat 32 f.cntD
  else if r = 0x20 then BitVec.ofNat 32 f.cntX
  else if r = 0x24 then BitVec.ofNat 32 f.cntAlarm
  else s.reg (0xB0000 + r)

def State.readCnt (s : State) (r : Nat) : Word :=
  if 0x1000 ≤ r ∧ r < 0x1800 ∧ r % 0x20 = 0x10 then
    BitVec.ofNat 32 (s.cnt ((r - 0x1000) / 0x20)).value.toNat
  else if 0x1000 ≤ r ∧ r < 0x1800 ∧ r % 0x20 = 0x14 then
    BitVec.ofNat 32 ((s.cnt ((r - 0x1000) / 0x20)).value.toNat / 2 ^ 32)
  else s.reg (0xC0000 + r)

/-- The value of the register at a control space offset, without the side effects of R376. -/
def State.readReg (s : State) (o : Nat) : Word :=
  let b := o / 0x10000
  let r := o % 0x10000
  if 0x400000 ≤ o then s.readPage ((o - 0x400000) / 0x1000) (o % 0x1000)
  else if b = 0 then s.readGlb r
  else if b = 1 then s.readLnk r
  else if b = 2 then s.readPrt r
  else if b = 3 then s.readHom r
  else if b = 4 then s.readWpc r
  else if b = 5 then s.readSto r
  else if b = 6 then s.readPrk r
  else if b = 7 then s.readMem r
  else if b = 8 then s.readCry r
  else if b = 9 then s.readDma r
  else if b = 10 then s.readMgt r
  else if b = 11 then s.readSaf r
  else if b = 12 then s.readCnt r
  else 0

end Sys2Proof.Machine
end

