-- ==== Sys2Proof/Machine/Fifo.lean ====
section
/-! DEFINITION. Reads of the control space: the two with side effects (R316, R320, R376) and all others (R374), for a
port's read or for a read command without a port. -/
namespace Sys2Proof.Machine

/-- The number that stands for no queue. -/
def noQueue : Nat := 8192

/-- Give a word to a reader: queue, request and byte of the line, or no queue and the register's offset. -/
def State.deliver (s : State) (r : Nat × Nat × Nat) (w : Word) : State :=
  if r.1 < noQueue then s.answer r.1 r.2.1 0 ⟨stOk, grI, natLine w.toNat r.2.2 4, 0⟩
  else s.emit (.csrRead r.2.2 w)

/-- With its last word the reply of a stop has been read out on the host path (R324, R355). -/
def State.readOut (s : State) : State :=
  if s.mgt.replyFifo.isEmpty && s.power.replyOut == some .host then { s with power := { s.power with replyOut := none } } else s

/-- A read of MGT_REPLY_FIFO (R316): a word, a stall, or 0 with `underrun`. -/
def State.replyRead (s : State) (r : Nat × Nat × Nat) : State :=
  match s.mgt.replyFifo with
  | w :: rest =>
    if s.mgt.readers.isEmpty then (({ s with mgt := { s.mgt with replyFifo := rest } }).readOut).deliver r w
    else { s with mgt := { s.mgt with readers := s.mgt.readers ++ [r] } }
  | [] =>
    if s.mgt.owedHost = 0 then (s.setBit rReplyStatus 9).deliver r 0
    else { s with mgt := { s.mgt with readers := s.mgt.readers ++ [r] } }

/-- Serve stalled reads in grant order, one word each (R376). -/
def serveReaders : List Word → List (Nat × Nat × Nat) → State → State
  | w :: ws, r :: rs, s => serveReaders ws rs (s.deliver r w)
  | ws, rs, s => { s with mgt := { s.mgt with replyFifo := ws, readers := rs } }

/-- Push reply words. -/
def State.pushReply (s : State) (ws : List Word) : State := (serveReaders (s.mgt.replyFifo ++ ws) s.mgt.readers s).readOut

/-- A read of MGT_EVT_LO (R320): the oldest entry leaves, or 0. -/
def State.evtPop (s : State) : Word × State :=
  match s.mgt.evtFifo with
  | (lo, hi) :: rest => (lo, { s with mgt := { s.mgt with evtFifo := rest, evtHi := hi } })
  | [] => (0, s)

/-- A read of any register for a reader (R335, R374, R376). -/
def State.ctlRead (s : State) (o : Nat) (r : Nat × Nat × Nat) : State :=
  if o = rReplyFifo then s.replyRead r
  else if o = rEvtLo then s.evtPop.2.deliver r s.evtPop.1
  else if votesHold o (s.reg3 o) then s.deliver r (s.readReg o)
  else s.voteFatal

end Sys2Proof.Machine
end

