-- ==== Sys2Proof/Machine/Queues.lean ====
section
/-! DEFINITION. Dispatch of queue heads (R83, R92), the fence logic (R143, R144), peer targets (R69, R70), answers in queue
order (R137, R142), the miss token (R93), wait chains and filter retries (R103, R106), and prefetches (R171 to R173). -/
namespace Sys2Proof.Machine

/-! ### Admission and eligibility (R83) -/

/-- Requests are admitted to the home slices and targets. -/
def State.admits (s : State) : Bool := s.power.boot == .run && !s.saf.drainBusy && s.saf.safe != .stop

/-- The kind of transaction of a queued request (R115). -/
def kindOf (op : BitVec 6) : TxKind :=
  if op = opRdShared then .rdShared else if op = opRdUnique then .rdUnique else if op = opRdOnce then .rdOnce
  else if op = opUpgrade then .upgrade else if op = opRdRsv then .rdRsv else if op = opAtomic then .atomic
  else if op = opEvictClean then .evictClean else if op = opWrCond then .wrCond
  else if op = opWbFull then .wbFull else if op = opWrFull then .wrFull else .wrPtl

def poolOf (op : BitVec 6) : Pool := if op = opEvictClean then .write else .demand

def QEnt.attr (q : Nat) (e : QEnt) : Attr := { req := some (q / 8, e.priv.toNat, q % 8), addr := some e.addr.toNat }

/-- A request that waits for its filter set (R106). -/
def State.isHeld (s : State) (q id : Nat) : Bool := s.home.heldSet.any (fun h => h.2.1 == q && h.2.2 == id)

/-- A queue head that competes for a home slice. -/
def State.headEligible (s : State) (q : Nat) (e : QEnt) : Bool :=
  let p := q / 8
  regionOf e.addr == .memory && e.op != opFence && e.op != opWrCond && !e.busErr && !((s.port p).fenced e.id)
    && (s.layBefore p (lineOf e.addr) e.id).isEmpty && decide (s.portSlots p < s.slotMax p)
    && !((s.poolFree (sliceOf (lineOf e.addr)) (poolOf e.op)).isEmpty) && !(s.isHeld q e.id)

/-- A port at `slot_max` has no head that is eligible for dispatch (R79). -/
def State.slotRoom (s : State) (p : Nat) : Bool := decide (s.portSlots p < s.slotMax p)

/-- Queues with requests: number and head. -/
def State.heads (s : State) : List (Nat × QEnt) := s.queues.filterMap (fun e => e.2.ents.head?.map (fun h => (e.1, h)))

/-- Local queue numbers of a link whose heads compete for a slice. -/
def State.linkHeads (s : State) (l slice : Nat) : List (Nat × Nat) :=
  (s.heads.filter (fun e => e.1 / 512 == l && sliceOf (lineOf e.2.addr) == slice && s.headEligible e.1 e.2)).map
    (fun e => (e.1 % 512, 0))

/-- The links whose heads compete for a slice. -/
def State.inletLinks (s : State) (slice : Nat) : List (Nat × Nat) :=
  (links16.filter (fun l => !((s.linkHeads l slice).isEmpty))).map (fun l => (l, 0))

/-- A competitor is the one that a roundabout grants. -/
def State.wins (s : State) (arb n : Nat) (cands : List (Nat × Nat)) (me : Nat × Nat) : Bool :=
  rbWinner n (s.arb arb) cands == some me

def State.granted (s : State) (arb n i : Nat) : State := s.setArb arb (rbNext n i)

/-! ### Strides (R171) -/

/-- The windows of the port's access domain hold the line for reading. -/
def State.pfAllowed (s : State) (p base line : Nat) : Bool :=
  line / 512 == base / 512 && s.installed line && s.adPermits (s.portAd p) true false (lineAddr line) 128

/-- Put a prefetch in the detector's issue queue of four. -/
def Port.pfPush (u : Port) (r : PfReq) : Port :=
  { u with pfq := (if u.pfq.length < 4 then u.pfq else u.pfq.tail) ++ [r] }

/-- What an event of a waiting prefetch of port `p` carries (R344). -/
def PfReq.attr (r : PfReq) (p : Nat) : Attr := { req := some (p, r.priv.toNat, r.tc.toNat) }

/-- The slot of a prefetch of port `p`. -/
def PfReq.slot (r : PfReq) (p : Nat) : Slot :=
  { Slot.blank .prefetch (.port p r.tc.toNat) r.line with priv := r.priv }

/-- A generated prefetch: dropped without a trace, or queued, where the oldest of four makes room. -/
def State.pfGen (s : State) (p : Nat) (rd : PfReq) (target : Int) : State :=
  if target < 0 then s
  else
    let line := target.toNat
    if !(s.pfAllowed p rd.line line) then s
    else
      let u := s.port p
      let s := s.setPort p (u.pfPush { rd with line := line })
      if u.pfq.length < 4 then s else s.count 0x2F ((u.pfq.head?.getD rd).attr p)

/-- Train the port's stride detector on a read, also while `pf_en` is 0 (R186; log entry 38). -/
def State.train (s : State) (p : Nat) (rd : PfReq) : State :=
  let u := s.port p
  let line := rd.line
  let x := u.stride
  let d : Int := (line : Int) - (x.last : Int)
  if d = 0 then s
  else
    let y : Stride :=
      if d = x.stride then { x with conf := min (x.conf + 1) 3 }
      else if -32 ≤ d ∧ d ≤ 31 then { x with stride := d, conf := 0, issued := false }
      else { x with stride := 0, conf := 0, issued := false }
    let y := { y with last := line }
    let s := s.setPort p { u with stride := y }
    if y.stride = 0 ∨ y.conf < s.pfConf ∨ !(s.bit rPfCtrl 0) then s
    else if !y.issued then
      let s := forEach (fun (i : Nat) s => s.pfGen p rd ((line : Int) + ((i : Int) + 1) * y.stride)) (List.range s.pfDepth) s
      s.setPort p { s.port p with stride := { y with issued := true } }
    else s.pfGen p rd ((line : Int) + (s.pfDepth : Int) * y.stride)

/-! ### Dispatch to a home slice -/

/-- The slot of a queued request. -/
def slotOf (q : Nat) (e : QEnt) : Slot :=
  { Slot.blank (kindOf e.op) (.port (q / 8) (q % 8)) (lineOf e.addr) with
    ansId := e.id, part := e.part, tag := e.tag, priv := e.priv, addr := e.addr, size := e.size
    data := e.ops, atomOp := e.atomOp, atomSize := e.atomSize, crossed := e.crossed }

def State.popHead (s : State) (q : Nat) : State :=
  let u := s.queue q
  s.setQueue q { u with ents := u.ents.tail }

/-- The head enters its slot and registers (R102). -/
def State.enterHome (s : State) (q : Nat) (e : QEnt) : State :=
  match s.takeSlot (sliceOf (lineOf e.addr)) (poolOf e.op) with
  | none => s
  | some r =>
    let s := (r.2.popHead q).count 0x0F (e.attr q)
    let s := if e.op == opRdShared || e.op == opRdUnique || e.op == opRdOnce || e.op == opRdRsv then
        s.train (q / 8) ⟨lineOf e.addr, e.priv, BitVec.ofNat 3 (q % 8)⟩ else s
    let s := s.guardVotes usesHome
    if s.saf.safe == .stop then s else (s.register r.1 (slotOf q e)).settle

/-- What a dispatch attempt comes to. -/
inductive Sent where
  | entered (s : State)
  /-- The filter set has no way for the region: a recall was started, or every way is in use (R106). -/
  | held (s : State) (busy : Bool)

/-- Dispatch the head of a queue to its slice, with a filter entry where it may be granted the line (R105, R106). -/
def State.sendHome (s : State) (q : Nat) (e : QEnt) : Sent :=
  if !((kindOf e.op).grants) then .entered (s.enterHome q e)
  else match s.filterGet (regionNo (lineOf e.addr)) with
    | .have s => .entered (s.enterHome q e)
    | .toRecall key => .held ((s.regionRecall key).getD s) false
    | .busy => .held s true

def setKeyOf (e : QEnt) : Nat :=
  sliceOf (lineOf e.addr) * 256 + filterSet (regionNo (lineOf e.addr))

/-- Dispatch a head for the first time; a held request returns to the head of its queue (R106). -/
def State.sendFirst (s : State) (q : Nat) (e : QEnt) : State :=
  match s.sendHome q e with
  | .entered s => s
  | .held s busy =>
    let s := { s with home := { s.home with heldSet := s.home.heldSet ++ [(setKeyOf e, q, e.id)] } }
    (if busy then s.count 0x16 (e.attr q) else s).settle

/-- A memory-region head goes on when it wins its link read arbiter and the slice's inlet (R83). -/
def State.inlet (s : State) (q : Nat) (e : QEnt) (go : State → State) : State :=
  let l := q / 512
  let slice := sliceOf (lineOf e.addr)
  if s.headEligible q e && s.wins (l * 8 + slice) 512 (s.linkHeads l slice) (q % 512, 0)
      && s.wins (200 + slice) 16 (s.inletLinks slice) (l, 0) then
    go ((s.granted (l * 8 + slice) 512 (q % 512)).granted (200 + slice) 16 l)
  else s

def State.dispatchMem (s : State) (q : Nat) (e : QEnt) : State := s.inlet q e (fun s => s.sendFirst q e)

/-! ### Peer targets (R69, R70) -/

/-- A tag of the device that is free on a link; which one is not specified (R54). -/
def State.freeTag (s : State) (l : Nat) : Option (Nat × State) :=
  match (List.range 4096).filter (fun t => (s.link l).devTags.all (fun d => d.tag != t)) with
  | [] => none
  | k :: r =>
    let f := s.fresh
    some ((k :: r).getD (f.1 % (r.length + 1)) k, f.2)

/-- Pass an access to its target link stop: it leaves at once on a link that is ACTIVE or asleep, and otherwise waits
for its timeout (R70). -/
def State.passTarget (s : State) (l p tc : Nat) (op : BitVec 6) (priv : BitVec 2) (id : Nat) (addr : Addr) (size : Nat)
    (data : List MsgSlot) : Option State :=
  (s.freeTag l).map (fun r =>
    let s := r.2
    let k := s.link l
    let d : DevTag := ⟨r.1, op == opRdOnce, p, tc, id, addr.toNat, size, false⟩
    let s := s.setLink l { k with devTags := k.devTags ++ [d] }
    if k.state == .active || k.state.asleep then s.sendMsg l ⟨reqHdr op tc priv r.1 size addr p, data⟩ else s)

/-- The first entry of a port's lay-by that may issue: it is behind entries whose order is settled, and its port is below
`slot_max` (R79, R89). -/
def State.layHead (s : State) (p : Nat) : Option LbEnt :=
  let u := s.port p
  let settled := fun (e : LbEnt) => e.dest != .mem
    || s.slotList.any (fun t => t.2.ansId == e.id && t.2.portOrg && t.2.isOpen && t.2.phase != .pave)
  match u.layby.dropWhile (fun e => e.issuing && settled e) with
  | e :: _ => if e.issuing || u.fenced e.id || !(s.slotRoom p) then none else some e
  | [] => none

/-- Competitors for a target link stop: ports with their traffic class (R83; log entry 60). -/
def State.targetCands (s : State) (l : Nat) : List (Nat × Nat) :=
  (s.heads.filter (fun e => e.2.peer == some l && regionOf e.2.addr == .device && e.2.op != opFence && !e.2.busErr
      && !((s.port (e.1 / 8)).fenced e.2.id) && s.slotRoom (e.1 / 8))).map (fun e => (e.1 / 8, e.1 % 8))
    ++ s.portsSeen.filterMap (fun p => match s.layHead p with
      | some e => if e.dest == .peer l then some (p, e.tc.toNat) else none
      | none => none)

/-- Competitors for the control space (R83; log entry 60). -/
def State.controlCands (s : State) : List (Nat × Nat) :=
  (s.heads.filter (fun e => regionOf e.2.addr == .control && e.2.op != opFence && !e.2.busErr
      && !((s.port (e.1 / 8)).fenced e.2.id) && s.slotRoom (e.1 / 8))).map (fun e => (e.1 / 8, e.1 % 8))
    ++ s.portsSeen.filterMap (fun p => match s.layHead p with
      | some e => if e.dest == .control then some (p, e.tc.toNat) else none
      | none => none)

/-- A device-region read (R77). -/
def State.dispatchDev (s : State) (q : Nat) (e : QEnt) : State :=
  match e.peer with
  | none => s
  | some l =>
    if (s.port (q / 8)).fenced e.id || !(s.slotRoom (q / 8)) || !(s.wins (600 + l) 1024 (s.targetCands l) (q / 8, q % 8)) then s
    else
      let g := (s.granted (600 + l) 1024 (q / 8)).popHead q
      (g.passTarget l (q / 8) (q % 8) opRdOnce e.priv e.id e.addr e.size []).getD s

/-- A control space read (R373 to R377). -/
def State.dispatchCtl (s : State) (q : Nat) (e : QEnt) : State :=
  if (s.port (q / 8)).fenced e.id || !(s.slotRoom (q / 8)) || !(s.wins 700 1024 s.controlCands (q / 8, q % 8)) then s
  else
    let s := (s.granted 700 1024 (q / 8)).popHead q
    s.ctlRead (ctlOffset e.addr) (q, e.id, offOf e.addr)

/-- A FENCE goes to its port's idle fence logic (R143). -/
def State.dispatchFence (s : State) (q : Nat) (e : QEnt) : State :=
  let u := s.port (q / 8)
  if u.fence.isSome || u.fenced e.id || !(s.slotRoom (q / 8)) then s
  else (s.popHead q).setPort (q / 8) { u with fence := some ⟨e.id, BitVec.ofNat 3 q, e.tag, e.priv⟩ }

/-- The head of a queue is dispatched or answered directly (R78). -/
def State.dispatch (s : State) (q : Nat) : State :=
  match (s.queue q).ents with
  | [] => s
  | e :: _ =>
    if s.power.boot == .standbyEntry || s.power.boot == .shutdown then
      (if e.op == opRdOnce && isReplyRead e.addr && s.stopping then s.dispatchCtl q e else s)
    else if !(s.admits) then s
    else if e.busErr then (s.popHead q).answer q e.id e.part (badRes stBusErr)
    else if e.op == opFence then s.dispatchFence q e
    else match regionOf e.addr with
      | .control => s.dispatchCtl q e
      | .device => s.dispatchDev q e
      | .memory =>
        match s.tryForward q with
        | some s => s
        | none => s.dispatchMem q e

/-- QUEUE_DISPATCH (R83, R85, R92, R102, R143, R375). -/
def execQueueDispatch (port : Fin 1024) (tc : Fin 8) (s : State) : Res :=
  let q := queueOf port.val tc.val
  ((s.dispatch q).refilled s q).done

/-! ### Filter retries (R106) -/

/-- A held request competes for its inlet again; one that finds no way keeps its place among the held (R83, R106). -/
def State.retryOne (s : State) (h : Nat × Nat × Nat) : State :=
  let free : State := { s with home := { s.home with heldSet := s.home.heldSet.filter (· != h) } }
  match (s.queue h.2.1).ents with
  | e :: _ =>
    if e.id ≠ h.2.2 then free
    else
      let t := free.inlet h.2.1 e (fun s => match s.sendHome h.2.1 e with
        | .entered s => s
        | .held s _ => s)
      if ((t.queue h.2.1).ents.head?.map (·.id)) == some e.id then { t with home := { t.home with heldSet := s.home.heldSet } }
      else t.refilled s h.2.1
  | [] => free

/-- FILTER_RETRY (R106): the held requests of a set, in order of their first attempt. -/
def execFilterRetry (slice : Fin 8) (set : Fin 256) (s : State) : Res :=
  State.done (if s.admits then
    (forEach (fun h s => s.retryOne h) (s.home.heldSet.filter (fun h => h.1 == slice.val * 256 + set.val)) s).settle else s)

/-! ### Wait chains (R103, R107) -/

/-- Order the head of a line's wait chain. -/
def State.chainNext (s : State) (line : Nat) : State :=
  if s.txOpen line || (s.victimOf line).isSome then s
  else match s.chain line with
    | [] => s
    | k :: r =>
      let s := s.setChain line r
      match s.slot k with
      | some t => (s.letIn k { t with phase := .lookup }).settle
      | none => s

/-- A slot that waited for its region and registers again: it is ordered, or joins the chain of its line. -/
def State.regionNext (s : State) (line : Nat) : State :=
  let region := regionNo line
  let oldest := s.slotList.foldl (fun (m : Option (Nat × Slot)) e =>
    if e.2.line == line && e.2.phase == .regionWait then
      match m with
      | some f => if f.2.regNo ≤ e.2.regNo then m else some e
      | none => some e
    else m) none
  if s.regionBusy region then s
  else match oldest with
    | none => s
    | some (k, t) =>
      if s.txOpen line || !(s.chain line).isEmpty || ((s.victimOf line).isSome && !t.kind.plainRead) then
        (s.setSlot k (some { t with phase := .chained })).setChain line (s.chain line ++ [k])
      else
        let go := fun (s : State) => (s.letIn k { t with phase := .lookup }).settle
        if t.kind.grants then
          match s.filterGet region with
          | .have s => go s
          | .toRecall key => ((s.regionRecall key).getD s).settle
          | .busy => s
        else go s

/-- WAIT_CHAIN_ADVANCE (R103, R107): the head of the line's chain, or the oldest request that waited for its region. -/
def execWaitChainAdvance (line : BitVec 30) (s : State) : Res :=
  State.done (if (s.chain line.toNat).isEmpty then s.regionNext line.toNat else s.chainNext line.toNat)

/-! ### The miss token (R93) -/

/-- A parked miss of the port takes the free token. -/
def State.tokenTake (s : State) (p : Nat) : State :=
  let u := s.port p
  match u.missToken, u.parked with
  | none, k :: r =>
    match s.slot k with
    | some t =>
      ((s.setPort p { u with missToken := some k, parked := r }).setSlot k (some { t with dram := .reading })).dramReadIssue
        k t.line
    | none => s.setPort p { u with parked := r }
  | _, _ => s

/-- MISS_TOKEN_TAKE (R93). -/
def execMissTokenTake (port : Fin 1024) (s : State) : Res := (s.tokenTake port.val).done

/-! ### Answers (R58, R115, R137, R140, R142) -/

/-- The status of an answer: the first that applies (R140). -/
def Ans.status (a : Ans) : BitVec 4 :=
  let parts := a.lo.toList ++ a.hi.toList
  let has := fun st => parts.any (fun (r : PartRes) => r.status == st)
  if !a.split then (a.lo.map (·.status)).getD stOk
  else if has stBusErr then stBusErr else if has stHalted then stHalted else if has stPoison then stPoison else stOk

/-- The data slots of a DATA answer (R57, R140). -/
def Ans.dataSlots (a : Ans) : List MsgSlot :=
  let off := offOf a.addr
  let lo := (a.lo.map (·.line)).getD 0
  if a.atom then lineSlots lo 0 1
  else if a.split then
    let n := 128 - off
    lineSlots (keepBytes lo off n) (off / 16) (8 - off / 16)
      ++ lineSlots (keepBytes ((a.hi.map (·.line)).getD 0) 0 (a.size - n)) 0 (chunkCount 0 (a.size - n))
  else lineSlots (keepBytes lo off a.size) (off / 16) (chunkCount off a.size)

def Ans.order (a : Ans) : Nat := max ((a.lo.map (·.order)).getD 0) ((a.hi.map (·.order)).getD 0)

def Ans.state (a : Ans) : BitVec 2 := (a.lo.map (·.state)).getD grI

/-- The message of an answer. -/
def Ans.msg (a : Ans) (p tc : Nat) : Msg :=
  if a.isData then ⟨rspHdr opData (p % 64) tc a.tag a.status a.state, a.dataSlots⟩
  else ⟨rspHdr opCmp (p % 64) tc a.tag a.status a.state, []⟩

/-- Send the oldest answer of a queue, if it is ready and its link can take it. -/
def State.answerSend (s : State) (q : Nat) : State :=
  let p := q / 8
  let l := p / 64
  match (s.queue q).answers with
  | [] => s
  | a :: r =>
    let m := a.msg p (q % 8)
    let k := s.link l
    if !a.ready || s.snoopsFirst l a.order then s
    else if !(k.canSend m) || !(k.classClear m) then s.wakeLink l
    else
      let s := s.setQueue q { s.queue q with answers := r }
      let at_ : Attr := { req := some (p, a.priv.toNat, q % 8), addr := some a.addr.toNat }
      let s := if a.status == stPoison then s.count 0x38 at_ else if a.status == stBusErr then s.count 0x3B at_ else s
      s.sendMsg l m

/-- ANSWER_SEND (R88, R137, R142): a CMP of a WB_FULL that waited for an earlier snoop goes first. -/
def execAnswerSend (port : Fin 1024) (tc : Fin 8) (s : State) : Res :=
  ((s.wbFlush (port.val / 64)).answerSend (queueOf port.val tc.val)).done

/-! ### The end of a FENCE (R144) -/

/-- Every request of the port that arrived before the FENCE is answered and every write accepted before it released. -/
def State.fenceReady (s : State) (p : Nat) (id : Nat) : Bool :=
  ((List.range 8).all (fun tc => (s.queue (queueOf p tc)).answers.all (fun a => decide (id ≤ a.id))))
    && (s.port p).layby.all (fun e => decide (id ≤ e.id))
    && (s.link (p / 64)).held.all (fun h => decide (id ≤ h.id) || p / 64 * 64 + h.h.stream.toNat != p)

/-- The status of a FENCE and the port after it. -/
def State.fenceEnd (s : State) (p : Nat) (f : FenceRec) : State :=
  let u := s.port p
  let q := queueOf p f.tc.toNat
  let a : Attr := { req := some (p, f.priv.toNat, f.tc.toNat) }
  let halted := s.saf.safe == .halted
  let st := if halted then stHalted else if u.lossFlag then stFenceLoss else stOk
  let s := s.setPort p { u with
    fence := none, fences := u.fences.filter (· != f.id), lossFlag := u.lossFlag && halted }
  let s := s.count 0x1F a
  let s := if st == stFenceLoss then s.count 0x20 a else s
  s.answer q f.id 0 ⟨st, grI, 0, 0⟩

/-- FENCE_COMPLETE (R144). -/
def execFenceComplete (port : Fin 1024) (s : State) : Res :=
  State.done (match (s.port port.val).fence with
    | some f => if s.fenceReady port.val f.id then s.fenceEnd port.val f else s
    | none => s)

/-! ### Responses from a peer target (R58, R70, R74) -/

/-- A response that R74 forbids: its stream, its status, or what it answers. -/
def State.rspBad (s : State) (l : Nat) (r : Rsp) (known : Bool) : Bool :=
  decide ((s.link l).streamCntM1 < r.stream.toNat) || decide (5 < r.status.toNat) || !known

/-- A message of the partner of class `c` with `n` slots is taken in and its slots freed; a violation quarantines. -/
def State.rspIn (s : State) (l c n : Nat) (r : Rsp) (known : Bool) (body : State → State) : State :=
  let k := s.link l
  if !(s.carrying l) then s
  else if devAdv c < k.rxHeld.get c + k.rxFreed.get c + n then s.quarantine l 6
  else if s.rspBad l r known then s.quarantine l 5
  else body (s.freeSlots l c n)

/-- The access of the device that a response answers. -/
def State.devAccess (s : State) (l : Nat) (r : Rsp) (isRead : Bool) : Option DevTag :=
  (s.link l).devTags.find? (fun d => d.tag == r.tag.toNat && d.isRead == isRead)

def State.dropTag (s : State) (l tag : Nat) : State :=
  let k := s.link l
  s.setLink l { k with devTags := k.devTags.filter (fun d => d.tag != tag) }

/-- CMP (R70, R89): a write of a peer window is complete; a late one is discarded. -/
def State.cmpIn (s : State) (l : Nat) (r : Rsp) : State :=
  s.rspIn l 2 1 r (s.devAccess l r false).isSome (fun s =>
    match s.devAccess l r false with
    | some d =>
      let s := s.dropTag l d.tag
      if d.timedOut then s else s.setPort d.port ((s.port d.port).release d.ansId)
    | none => s)

def execCmp (l : Fin 16) (r : Rsp) (s : State) : Res := (s.cmpIn l.val r).done

/-- DATA (R69, R70): a read of a peer window is answered; a late answer is discarded. -/
def State.dataIn (s : State) (l : Nat) (r : Rsp) (slots : List MsgSlot) : State :=
  s.rspIn l 3 (1 + slots.length) r (s.devAccess l r true).isSome (fun s =>
    match s.devAccess l r true with
    | some d =>
      let s := s.dropTag l d.tag
      if d.timedOut then s
      else s.answer (queueOf d.port d.tc) d.ansId 0 ⟨r.status, grI, slotsFrom (d.addr % 128 / 16) slots, 0⟩
    | none => s)

def execData (l : Fin 16) (r : Rsp) (slots : List MsgSlot) (s : State) : Res := (s.dataIn l.val r slots).done

/-- A device-type write is lost (R145). -/
def Port.lose (u : Port) : Port := { u with lossFlag := true, lossCnt := satInc u.lossCnt 255 }

/-- The timeout of an access: a request that has not left yet never leaves; its tag stays in use while the link carries
messages (R54). -/
def State.targetTimeout (s : State) (l tag : Nat) : State :=
  match (s.link l).devTags.find? (fun d => d.tag == tag && !d.timedOut) with
  | none => s
  | some d =>
    let k := s.link l
    let waits := fun (m : Msg) => m.cls == 0 && (m.hdr.extractLsb' 20 12).toNat == tag
    let tags := if k.state.alive then k.devTags.map (fun x => if x.tag == tag then { x with timedOut := true } else x)
      else k.devTags.filter (fun x => x.tag != tag)
    let s := s.setLink l { k with txWait := k.txWait.filter (fun m => !(waits m)), devTags := tags }
    if d.isRead then s.answer (queueOf d.port d.tc) d.ansId 0 (badRes stBusErr)
    else
      let u := s.port d.port
      (s.setPort d.port ((u.release d.ansId).lose)).err (rLnkErr l) 1 10 .p (some d.port) d.addr

/-- TARGET_TIMEOUT (R70, R145). -/
def execTargetTimeout (l : Fin 16) (tag : BitVec 12) (s : State) : Res := (s.targetTimeout l.val tag.toNat).done

/-! ### Prefetches (R172, R173) -/

/-- Ports whose oldest prefetch waits for a slice; one with no token left does not compete (DESIGN CHOICE, log entry 38). -/
def State.pfCands (s : State) (slice : Nat) : List (Nat × Nat) :=
  s.portsSeen.filterMap (fun p => match (s.port p).pfq with
    | x :: _ =>
      if sliceOf x.line == slice && (decide ((s.port p).pfUsed < s.wp.portTokens) || decide (0 < s.wp.poolTokens)) then
        some (p, 0)
      else none
    | [] => none)

/-- Spend a token: the port's own, then one of the shared pool; none when both are spent. -/
def State.pfToken (s : State) (p : Nat) : Option State :=
  let u := s.port p
  if u.pfUsed < s.wp.portTokens then some (s.setPort p { u with pfUsed := u.pfUsed + 1 })
  else if 0 < s.wp.poolTokens then some { s with wp := { s.wp with poolTokens := s.wp.poolTokens - 1 } }
  else none

/-- A waiting prefetch enters its slice, in an fc in which no read competes for the inlet. -/
def State.pfIssue (s : State) (p : Nat) : State :=
  match (s.port p).pfq with
  | [] => s
  | y :: r =>
    let slice := sliceOf y.line
    if !(s.admits) || s.offline || !((s.inletLinks slice).isEmpty)
        || !(s.wins (730 + slice) 1024 (s.pfCands slice) (p, 0)) then s
    else match s.takeSlot slice .prefetch with
      | none => s
      | some x =>
        match x.2.pfToken p with
        | none => s
        | some s =>
          let t := y.slot p
          let s := (s.setPort p { s.port p with pfq := r }).granted (730 + slice) 1024 p
          ((s.count 0x2E t.attr).register x.1 t).settle

/-- PREFETCH_ISSUE (R172, R173). -/
def execPrefetchIssue (port : Fin 1024) (s : State) : Res := (s.pfIssue port.val).done

/-- PREFETCH_EXPIRE (R172): the port's oldest prefetch has waited 1,536 fc. -/
def execPrefetchExpire (port : Fin 1024) (s : State) : Res :=
  let u := s.port port.val
  State.done (match u.pfq with
    | [] => s
    | y :: r => (s.setPort port.val { u with pfq := r }).count 0x2F (y.attr port.val))

end Sys2Proof.Machine
end

