-- ==== Sys2Proof/Machine/Snoops.lean ====
section
/-! DEFINITION. Snoop answers (R111, R113, R114, R118 to R122), snoop timeouts (R112, R126) and the recovery of a dead
link's regions (R127). -/
namespace Sys2Proof.Machine

/-- The snoop invalidates the line in the snooped cache. -/
def invalidates (op : BitVec 6) : Bool := op == opSnpInv || op == opFwdUnique || op == opRegionInv

def forwards (op : BitVec 6) : Bool := op == opFwdShared || op == opFwdUnique

/-- The states that an answer may leave in the snooped cache (R114); one that carries written-back data leaves I
(R113). -/
def stateAllowed (op : BitVec 6) (isData wb : Bool) (st : BitVec 2) : Bool :=
  if invalidates op then st == grI
  else if isData then st == grS || (wb && st == grI)
  else st == grI || st == grS

/-- The slot whose snoop to a link a message answers. -/
def State.snoopSlot (s : State) (l : Nat) (r : Rsp) : Option (Nat × Slot) :=
  let k := r.tag.toNat
  if (s.link l).snpTags.any (fun e => e.1 == k) then
    match s.slot k with
    | some t => if t.snpOut.getLsbD l then some (k, t) else none
    | none => none
  else none

/-- The message answers a snoop outstanding to the link, or one whose transaction the stop state abandoned (R341). -/
def State.snoopKnown (s : State) (l : Nat) (r : Rsp) : Bool :=
  (s.snoopSlot l r).isSome
    || ((s.slot r.tag.toNat).isNone && (s.link l).snpTags.any (fun e => e.1 == r.tag.toNat))

/-- The answer carries the data of a WB_FULL whose CMP had not left when the snoop did (R122). -/
def State.wbExempt (s : State) (l k line : Nat) : Bool :=
  (s.link l).wbOpen.any (fun w => w.2 == line) || (s.link l).snpTags.any (fun e => e.1 == k && e.2)

/-- The snoop to the link is answered: its tag is free, and requests that the answer passes are crossed (R120). -/
def State.snoopClosed (s : State) (l k : Nat) (t : Slot) : State :=
  let u := s.link l
  let s := s.setLink l { u with snpTags := u.snpTags.filter (fun e => e.1 != k) }
  if t.snpOp == opRegionInv then
    forEach (fun i s => s.markCrossed l (t.line + i) false) (List.range 32) s
  else s.markCrossed l t.line (!(invalidates t.snpOp))

/-- SNP_ACK (R114, R122). -/
def State.snpAck (s : State) (l : Nat) (r : Rsp) : State :=
  match s.snoopSlot l r with
  | none =>
    let u := s.link l
    s.setLink l { u with snpTags := u.snpTags.filter (fun e => e.1 != r.tag.toNat) }
  | some (k, t) =>
    if !(stateAllowed t.snpOp false false r.state) then s.claim l 2 t.line
    else
      let s := (ringAll (linkStop l) 1 [(0, [homeStop (k / 512)], 1)] s).snoopClosed l k t
      match s.slot k with
      | some t => (s.ackOne k t l (r.state == grS) false).settle
      | none => s

def State.snpAckIn (s : State) (l : Nat) (r : Rsp) : State := s.rspIn l 2 1 r (s.snoopKnown l r) (fun s => s.snpAck l r)

def execSnpAck (l : Fin 16) (r : Rsp) (s : State) : Res := (s.snpAckIn l.val r).done

/-- The state that the requester gets with forwarded data (R114). -/
def fwdState (t : Slot) (dirty : Bool) : BitVec 2 :=
  if t.snpOp == opFwdShared then (if t.kind == .rdShared then grS else grI) else if dirty then grM else grE

/-- What a link stop puts on the ring for a SNP_DATA (R110, R114): forwarded data to the requester's stop, and to the home the
data, or the header alone. -/
def State.dataRing (s : State) (l k : Nat) (t : Slot) (fwd dirty : Bool) : State :=
  let home := [homeStop (k / 512)]
  if fwd then
    ringAll (linkStop l) 2 [(1, [linkStop (t.fwdPort / 64)], 2),
      if t.snpOp == opFwdShared && dirty then (3, home, 2) else (0, home, 1)] s
  else ringAll (linkStop l) 1 [(3, home, 2)] s

/-- SNP_DATA of a snoop of one line. -/
def State.snpLine (s : State) (l k : Nat) (t : Slot) (r : Rsp) (d : Line) (wb : Bool) : State :=
  let s := s.snoopClosed l k t
  match s.slot k with
  | none => s
  | some t =>
    let fwd := r.fwd && forwards t.snpOp && !t.forwarded
    let keep := r.dirty && !(wb && !t.hs.lent)
    let s := s.dataRing l k t fwd r.dirty
    let s := if fwd then s.reply t true stOk (fwdState t r.dirty) d else s
    let t := { t with
      forwarded := t.forwarded || fwd, gotDirty := t.gotDirty || keep, got := if keep then some d else t.got }
    (s.ackOne k t l (r.state == grS) false).settle

/-- SNP_DATA (R107, R114, R118, R119, R122). -/
def State.snpData (s : State) (l : Nat) (r : Rsp) (slots : List MsgSlot) : State :=
  match s.snoopSlot l r with
  | none => s
  | some (k, t) =>
    let d := slotsFrom 0 slots
    let line := lineOf r.addr
    let wb := s.wbExempt l k t.line
    let a : Attr := { addr := some r.addr.toNat }
    let s := if r.fwd then s.count 0x18 a else s
    let s := if r.dirty then s.count 0x19 a else s
    if !(stateAllowed t.snpOp true wb r.state) then s.claim l 2 line
    else if t.snpOp == opRegionInv then
      if regionNo line ≠ regionNo t.line then s.claim l 1 line
      else ((s.dataRing l k t false true).setSlot k (some { t with buf := t.buf ++ [(line, d)] })).settle
    else if line ≠ t.line || (r.dirty && !t.hs.lent && !wb) then s.claim l 1 line
    else s.snpLine l k t r d wb

def State.snpDataIn (s : State) (l : Nat) (r : Rsp) (slots : List MsgSlot) : State :=
  s.rspIn l 3 (1 + slots.length) r (s.snoopKnown l r) (fun s => s.snpData l r slots)

def execSnpData (l : Fin 16) (r : Rsp) (slots : List MsgSlot) (s : State) : Res := (s.snpDataIn l.val r slots).done

/-- A link does not answer a snoop in time (R126). -/
def State.snoopTimeout (s : State) (k l : Nat) : State :=
  match s.slot k with
  | none => s
  | some t =>
    if !(t.snpOut.getLsbD l) then s
    else
      let s := { s with home := { s.home with dead := s.home.dead ||| linkBit l } }
      ((s.err rHomErr 3 0 .info (linkPort l) (lineAddr t.line)).raise 9 l).loseLink l .quarantine

def execSnoopTimeout (slot : Fin 4096) (l : Fin 16) (s : State) : Res := (s.snoopTimeout slot.val l.val).done

/-- Regions of a slice under recovery. -/
def State.recoveries (s : State) (slice : Nat) : Nat :=
  (s.slotList.filter (fun e => e.2.kind == .deadRegion && e.1 / 512 == slice)).length

/-- The next region of a slice to recover: nothing is open in it. -/
def State.nextRecovery (s : State) (slice : Nat) : Option (Nat × Nat) :=
  s.home.recovering.find? (fun e => e.2 / 4096 == slice &&
    s.slotList.all (fun t => !(t.2.kind == .deadRegion && t.2.fkey == e.2)
      && (match s.fent e.2 with
          | some f => regionNo t.2.line != f.region || !t.2.busy
          | none => true)))

/-- Take up regions while fewer than 16 of the slice are in progress (R127). -/
def recoverUp (slice : Nat) : Nat → State → State
  | 0, s => s
  | n + 1, s =>
    if 16 ≤ s.recoveries slice then s
    else match s.nextRecovery slice with
      | none => s
      | some e =>
        match s.deadStart e.1 e.2 with
        | some s => recoverUp slice n s
        | none => s

/-- DEAD_REGION_RECOVERY (R127). -/
def execDeadRegionRecovery (slice : Fin 8) (s : State) : Res := (recoverUp slice.val 16 s).settle.done

end Sys2Proof.Machine
end

