-- ==== Sys2Proof/Machine/Flits.lean ====
section
/-! DEFINITION. Flits from a link partner (R40 to R46, R51, R53, R65 to R67): MSG flits and the messages that they
complete, IDLE and LINK flits, and the orderly detach (R72). -/
namespace Sys2Proof.Machine

/-! ### The detach handshake (R72) -/

/-- DETACH_REQ (R72, R74): the regions of the link are due for a recall. -/
def State.detachIn (s : State) (l : Nat) : State :=
  let k := s.link l
  if !(s.carrying l) then s
  else if l < 14 then s.quarantine l 5
  else if devAdv 4 < k.rxHeld.get 4 + k.rxFreed.get 4 + 1 then s.quarantine l 6
  else
    let s := s.setLink l { k with detaching := true, rxHeld := k.rxHeld.upd 4 (· + 1) }
    let s := s.freeSlots l 4 1
    let due := s.filterOfLink l
    let s := { s with home := { s.home with
      recallDue := s.home.recallDue ++ due.filter (fun d => !(s.home.recallDue.contains d)) } }
    s.settle

def execDetachReq (l : Fin 16) (s : State) : Res := (s.detachIn l.val).done

/-- Every transaction, answer, write and snoop of the link's ports is complete (R72). -/
def State.detachReady (s : State) (l : Nat) : Bool :=
  (s.filterOfLink l).isEmpty && (s.link l).snpTags.isEmpty && (s.link l).held.isEmpty && (s.link l).reqTags.isEmpty
    && s.queues.all (fun e => e.1 / 512 != l || (e.2.ents.isEmpty && e.2.answers.isEmpty))
    && s.ports.all (fun e => e.1 / 64 != l || (e.2.layby.isEmpty && e.2.fence.isNone))
    && s.slotList.all (fun e => match e.2.org with | .port p _ => p / 64 != l | _ => true)

def detachAck : Msg := ⟨ctlHdr 0x3A 0 0, []⟩

/-- DETACH_COMPLETE (R72, R148; log entry 58): the device waits until it holds a toll for DETACH_ACK. -/
def execDetachComplete (l : Fin 16) (s : State) : Res :=
  let l := l.val
  State.done (if (s.link l).detaching && s.carrying l && s.detachReady l && (s.link l).canSend detachAck
        && (s.link l).classClear detachAck then
      let s := (s.sendMsg l detachAck).dropPorts l
      let s := s.setLink l { s.link l with
        state := .detached, detaching := false, replayBuf := [], txWait := [], assembly := none, nakOut := false }
      (s.logEvent 1 0x80 .info (linkPort l) 0).raise 9 l
    else s)

/-! ### Messages in MSG flits (R53, R74) -/

/-- Data slots that follow a header slot from the partner (R53, R56, R57), none for a header it may not send. -/
def State.hdrSlots (s : State) (l : Nat) (w : MsgSlot) : Option Nat :=
  let op : BitVec 6 := w.extractLsb' 3 6
  let cls := (w.extractLsb' 0 3).toNat
  if opClass op ≠ some cls ∨ opFromPartner op = false then none
  else if cls = 0 then some (reqSlots op (Req.ofHdr w))
  else if op = opSnpData then some 8
  else if op = opData then
    match (s.link l).devTags.find? (fun d => d.tag == (Rsp.ofHdr w).tag.toNat) with
    | some d => some (chunkCount d.addr d.size)
    | none => some 0
  else some 0

/-- A response answers what is outstanding to the link. -/
def State.rspKnown (s : State) (l : Nat) (op : BitVec 6) (r : Rsp) : Bool :=
  if op = opCmp then (s.devAccess l r false).isSome
  else if op = opData then (s.devAccess l r true).isSome
  else s.snoopKnown l r

/-- The error bit of a header that its link must not send now, with `n` data slots (R74). -/
def State.hdrFault (s : State) (l : Nat) (w : MsgSlot) (n : Nat) : Option Nat :=
  let k := s.link l
  let cls := (w.extractLsb' 0 3).toNat
  let bad :=
    if cls = 0 then s.reqBad l (Req.ofHdr w)
    else if cls = 4 then decide (l < 14)
    else s.rspBad l (Rsp.ofHdr w) (s.rspKnown l (w.extractLsb' 3 6) (Rsp.ofHdr w))
  if bad then some 5
  else if devAdv cls < k.rxHeld.get cls + k.rxFreed.get cls + 1 + n then some 6
  else none

/-- Hand on a message that has arrived whole. -/
def State.msgIn (s : State) (l : Nat) (w : MsgSlot) (data : List MsgSlot) : State :=
  let op : BitVec 6 := w.extractLsb' 3 6
  let cls := (w.extractLsb' 0 3).toNat
  if cls = 0 then s.reqIn l op (Req.ofHdr w) data
  else if op = opCmp then s.cmpIn l (Rsp.ofHdr w)
  else if op = opData then s.dataIn l (Rsp.ofHdr w) data
  else if op = opSnpAck then s.snpAckIn l (Rsp.ofHdr w)
  else if op = opSnpData then s.snpDataIn l (Rsp.ofHdr w) data
  else s.detachIn l

/-- One slot of an accepted MSG flit (R53, R74). -/
def State.rxSlot (s : State) (l kind : Nat) (w : MsgSlot) : State :=
  let k := s.link l
  if kind = 0 ∨ k.state ≠ .active then s
  else match kind, k.assembly with
    | 1, none =>
      match s.hdrSlots l w with
      | none => s.quarantine l 5
      | some n =>
        match s.hdrFault l w n with
        | some bit => s.quarantine l bit
        | none => if n = 0 then s.msgIn l w [] else s.setLink l { k with assembly := some ⟨w, [], n⟩ }
    | 2, some m =>
      if m.left ≤ 1 then (s.setLink l { k with assembly := none }).msgIn l m.hdr (m.data ++ [w])
      else s.setLink l { k with assembly := some { m with data := m.data ++ [w], left := m.left - 1 } }
    | _, _ => s.quarantine l 5

/-- The flit leaves on a link. -/
def Out.onLink (l : Nat) : Out → Bool
  | .msg k _ _ => k == l
  | .linkFlit k _ _ _ => k == l
  | .resend k _ _ => k == l
  | _ => false

/-- An accepted MSG flit: its slots, and an IDLE flit with the new acknowledgment when nothing else leaves (R44). -/
def State.rxAccept (s : State) (l : Nat) (f : Flit) : State :=
  let k := s.link l
  let n := s.out.length
  let s := (s.setLink l { k with rxExp := (k.rxExp + 1) % 1024, rxAckVld := true, nakOut := false }).count 0x02
    { link := some l }
  let s := (s.rxSlot l (flitKind0 f) (flitSlot0 f)).rxSlot l (flitKind1 f) (flitSlot1 f)
  if (s.out.drop n).all (fun o => !(o.onLink l)) && (s.link l).state == .active then s.emit (.idle l (s.link l).txAck) else s

/-- A MSG flit (R45); half of the sequence numbers count as behind the expected one (log entry 58). -/
def State.rxMsgFlit (s : State) (l : Nat) (f : Flit) : State :=
  if !(s.carrying l) then s
  else if !(flitCrcOk f) then s.crcFail l
  else if flitType f ≠ 1 then s
  else
    let s := (s.setLink l ((s.link l).ack f)).flush l
    let k := s.link l
    let behind := (k.rxExp + 1024 - flitSeq f) % 1024
    if behind = 0 then s.rxAccept l f
    else if behind ≤ 512 then s
    else if k.nakOut then s else s.sendNak l

/-! ### Meanings -/

/-- MSG_FLIT (R41 to R45, R53, R74). -/
def execMsgFlit (l : Fin 16) (f : Flit) (s : State) : Res := (s.rxMsgFlit l.val f).done

/-- IDLE_FLIT (R44). -/
def execIdleFlit (l : Fin 16) (f : Flit) (s : State) : Res :=
  (s.rxCommon l.val f (fun f => flitType f == 0) (·.flush l.val)).done

/-- TOLL (R51). -/
def execToll (l : Fin 16) (f : Flit) (s : State) : Res :=
  (s.rxCommon l.val f (isLinkOp 0) (fun s => (s.flush l.val).takeToll l.val f)).done

/-- NAK (R46, R47): waiting messages follow the replay. -/
def execNak (l : Fin 16) (f : Flit) (s : State) : Res :=
  let q := (flitParam f 0 + 256 * flitParam f 1) % 1024
  (s.rxCommon l.val f (isLinkOp 1) (fun s => (s.replayFrom l.val (fun r => r.seq == q)).flush l.val)).done

/-- The device's answer to PWR_REQ (R65, R67); a state that R40 does not list is refused (log entry 58). -/
def State.pwrAnswer (s : State) (l n : Nat) : State :=
  let k := s.link l
  if k.quiet && (n == 1 || n == 2) then
    let m := match k.pwrOut with | some o => min o n | none => n
    (s.linkOut l 3 [n]).enterSleep l m
  else s.linkOut l 4 [n]

/-- PWR_REQ (R65, R67). -/
def execPwrReq (l : Fin 16) (f : Flit) (s : State) : Res :=
  (s.rxCommon l.val f (isLinkOp 2) (fun s => (s.flush l.val).pwrAnswer l.val (flitParam f 0))).done

/-- PWR_ACK (R65, R67). -/
def execPwrAck (l : Fin 16) (f : Flit) (s : State) : Res :=
  let l := l.val
  (s.rxCommon l f (isLinkOp 3) (fun s =>
    let s := s.flush l
    match (s.link l).pwrOut with
    | some n => s.enterSleep l n
    | none => s)).done

/-- PWR_NAK (R65). -/
def execPwrNak (l : Fin 16) (f : Flit) (s : State) : Res :=
  (s.rxCommon l.val f (isLinkOp 4) (fun s =>
    (s.flush l.val).setLink l.val { (s.flush l.val).link l.val with pwrOut := none })).done

/-- NAK_REPEAT_TIMEOUT (R45). -/
def execNakRepeatTimeout (l : Fin 16) (s : State) : Res :=
  State.done (if s.carrying l.val && (s.link l.val).nakOut then s.sendNak l.val else s)

/-- REPLAY_TIMEOUT (R46, R47). -/
def execReplayTimeout (l : Fin 16) (s : State) : Res :=
  State.done (if s.carrying l.val && !(s.link l.val).replayBuf.isEmpty then s.replayFrom l.val (fun _ => true) else s)

/-- TOLL_RETURN_TIMEOUT (R51). -/
def execTollReturnTimeout (l : Fin 16) (s : State) : Res :=
  State.done (if s.carrying l.val && classes5.any (fun c => (s.link l.val).rxFreed.get c != 0) then s.sendToll l.val
    else s)

end Sys2Proof.Machine
end

