-- ==== Sys2Proof/Machine/Fills.lean ====
section
/-! DEFINITION. What the store and the DRAM channels bring back to a transaction: frame reads and writes (R161, R163, R191),
DRAM reads with link ECC, tag check and decryption (R243, R247, R266, R269, R270) and write acknowledgments (R123,
R242). -/
namespace Sys2Proof.Machine

/-- FRAME_READ_DONE (R161, R191 to R197). -/
def execFrameReadDone (slot : Fin 4096) (e : FrameErr) (s : State) : Res :=
  State.done (match s.slot slot.val with
    | some t => if t.fuse == .reading then s.withVotes usesHome (fun s => (s.frameRead slot.val t e).settle) else s
    | none => s)

/-- FRAME_WRITE_DONE (R163, R169). -/
def execFrameWriteDone (slot : Fin 4096) (s : State) : Res :=
  State.done (match s.slot slot.val with
    | some t =>
      match t.wrImg with
      | some img => s.withVotes usesHome (fun s => (s.frameWritten slot.val t img).settle)
      | none => s
    | none => s)

/-! ### DRAM reads -/

/-- Corrections of a burst. -/
def burstFixed (b : Burst) : Nat := if b == .single then 1 else 0

/-- Reads of a line until one passes (R247): single-bit corrections made, and how many reads failed before; none when all
did. Each read has two bursts. -/
def burstRun : List (Burst × Burst) → Nat → Nat → Nat × Option Nat
  | [], c, _ => (c, none)
  | (a, b) :: r, c, n =>
    let c := c + burstFixed a + burstFixed b
    if a == .uncorrectable || b == .uncorrectable then burstRun r c (n + 1) else (c, some n)

/-- Outcome of the link ECC check over up to three reads (R247): single-bit corrections, whether a reread passed, and whether
the line is poisoned. -/
def burstOutcome (d : DramIn) : Nat × Bool × Bool :=
  let r := burstRun [(d.b1, d.u1), (d.b2, d.u2), (d.b3, d.u3)] 0 0
  (r.1, r.2.any (0 < ·), r.2.isNone)

/-- The same for the tag line that is read with the data (R268). -/
def tagOutcome (d : DramIn) : Nat × Bool × Bool :=
  burstOutcome { d with b1 := d.t1, b2 := d.t2, b3 := d.t3, u1 := .pass, u2 := .pass, u3 := .pass }

/-- Count and log what the link ECC check found on the channel of a line. -/
def State.noteBurst (s : State) (line : Nat) (port : Option Nat) (o : Nat × Bool × Bool) : State :=
  let c := channelOf line
  let a := lineAddr line
  let s := if o.1 ≠ 0 then
      let s := s.setChan c { s.chan c with eccTick := (s.chan c).eccTick + o.1 }
      let s := { s with mem := { s.mem with eccCnt := min 0xffffffff (s.mem.eccCnt + o.1) } }
      forEach (fun _ s => s.count 0x35 { addr := some a }) (List.range o.1) (s.err rMemErr 7 0 .c port a)
    else s
  let s := if o.2.1 then s.err rMemErr 7 1 .c port a else s
  if o.2.2 then s.err rMemErr 7 2 .p port a else s

/-- What the check finds with link ECC out of use: nothing (R247). -/
def State.burstOf (s : State) (o : Nat × Bool × Bool) : Nat × Bool × Bool :=
  if s.mem.linkEcc then o else (0, false, false)

/-- What a DRAM read of a line leaves: poisoned, a tag that cannot be had (R270), a failed tag check (R266), or data. -/
inductive DramRes where
  | poison
  | noTag
  | badTag
  | data (d : Line)
deriving DecidableEq, Repr

/-- A DRAM read of a line arrives, with `tagRead` together with its tag line: link ECC, decryption and the tag check. A line
whose tag line stays uncorrectable is poisoned with it (log entry 32). -/
def State.dramArrive (s : State) (line : Nat) (port : Option Nat) (tagRead : Bool) (d : DramIn) : DramRes × State :=
  let o := s.burstOf (burstOutcome d)
  let u := if tagRead then s.burstOf (tagOutcome d) else (0, false, false)
  let s := s.noteBurst line port o
  let s := s.noteBurst (match s.integWin line with | some w => (s.tagPlace w line).1 / 128 | none => line) port
    (u.1, u.2.1, false)
  let s := if u.2.2 && !o.2.2 then s.err rMemErr 7 2 .p port (lineAddr line) else s
  if o.2.2 || u.2.2 then (.poison, s)
  else
    let g := s.dramGet line d
    (if !g.1.tagged then .noTag else if g.1.ok then .data g.1.line else .badTag, g.2)

/-- Free the miss token that a slot holds (R93). -/
def State.tokenFree (s : State) (k : Nat) (t : Slot) : State :=
  match t.org with
  | .port p _ => if (s.port p).missToken == some k then s.setPort p { s.port p with missToken := none } else s
  | _ => s

/-- A DRAM line of a prefetch fails its tag check (R270). -/
def State.prefetchFail (s : State) (k : Nat) (t : Slot) : State :=
  let s := (s.cryAlarm 3 none t.addr).logEvent 8 0x80 .p none (lineAddr t.line)
  ((s.poisonIn t.line).count 0x2F t.attr).updSlot k (fun t => { t with phase := .place, dram := .got, todo := [] })

/-- What the refetch of a way brings from DRAM (R178): the way's data, or a failure by its own rule, after which the way goes. -/
def State.refetchGot (s : State) (k : Nat) (t : Slot) (r : DramRes) : State :=
  let got := fun (s : State) => s.updSlot k (fun t => { t with dram := .got })
  match r, s.wayOf t.line with
  | .data d, some w =>
    (s.putWay w { s.way w with data := d, dataBad := false }).updSlot k (fun t =>
      { t with refetch := false, dram := .no, fuse := .no, frame := none })
  | .badTag, _ =>
    if t.kind == .parkMove || t.kind == .writeBack then
      got (((s.cryAlarm 3 none t.addr).logEvent 8 0x80 .p none (lineAddr t.line)).poisonIn t.line)
    else (got s).updSlot k (fun t => { t with poisoned := true })
  | .poison, _ => got (s.poisonIn t.line)
  | _, _ => got s

/-- The DRAM read of a slot returns. -/
def State.dramReturn (s : State) (k : Nat) (t : Slot) (d : DramIn) : State :=
  let tagRead := s.tagAsked k t.line
  let s := (s.cmdsDone k t.line false).tokenFree k t
  let r := s.dramArrive t.line (if t.kind == .prefetch then none else t.logPort) tagRead d
  let s := r.2
  if t.refetch then s.refetchGot k t r.1
  else match r.1 with
    | .poison => (s.poisonIn t.line).updSlot k (fun t => { t with dram := .got, hs := .hp })
    | .noTag => s.updSlot k (fun t => { t with dram := .got, hs := .hp })
    | .data x => s.updSlot k (fun t => { t with dram := .got, copy := some x })
    | .badTag =>
      if t.kind == .prefetch then s.prefetchFail k t else s.updSlot k (fun t => { t with dram := .got, poisoned := true })

/-- DRAM_READ_RETURN (R93, R243, R247, R266, R269). -/
def execDramReadReturn (slot : Fin 4096) (d : DramIn) (s : State) : Res :=
  State.done (match s.slot slot.val with
    | some t => if t.dram == .reading && s.cmdsIssued slot.val t.line false then s.withVotes usesHome (fun s => (s.dramReturn slot.val t d).settle) else s
    | none => s)

/-- The oldest write of a slot that its channel has issued is acknowledged. -/
def State.writeAck (s : State) (k : Nat) (t : Slot) : State :=
  match t.victims.find? (fun v => s.cmdsIssued k v.line true) with
  | some v => ((s.cmdsDone k v.line true).updSlot k (fun t => { t with victims := t.victims.erase v })).settle
  | none => s

/-- DRAM_WRITE_ACK (R123, R242). -/
def execDramWriteAck (slot : Fin 4096) (s : State) : Res :=
  State.done (match s.slot slot.val with
    | some t => s.writeAck slot.val t
    | none => s)

end Sys2Proof.Machine
end

