-- ==== Sys2Proof/Machine/Upkeep.lean ====
section
/-! DEFINITION. Upkeep of cache and store: maintenance by register (R174 to R177, R186), the age sweep and write-backs
(R168, R169, R178, R179), correction rewrites (R194), lane shift (R203, R204), retirement and closure (R206, R207, R222,
R223), resurfacing (R208), persisting (R205, R328) and test frames (R212). -/
namespace Sys2Proof.Machine

/-! ### Maintenance by register (R186) -/

/-- A write of WPC_MAINT_CMD: `go` starts the operation unless one is in progress. -/
def State.maintCmdWrite (s : State) (v : Word) : State :=
  let s := s.writeReg rMaintCmd v
  if v.getLsbD 31 && !s.wp.maintBusy then
    ({ s with wp := { s.wp with maintBusy := true, maintWait := some v } }).settle
  else s

/-- MAINT_CLEAN (R174, R186). -/
def execMaintClean (v : Word) (s : State) : Res := (s.ctl (·.maintCmdWrite v)).done

/-- MAINT_INVALIDATE (R174, R176, R186). -/
def execMaintInvalidate (v : Word) (s : State) : Res := (s.ctl (·.maintCmdWrite v)).done

/-- MAINT_CLEAN_INVALIDATE (R174, R176, R186). -/
def execMaintCleanInvalidate (v : Word) (s : State) : Res := (s.ctl (·.maintCmdWrite v)).done

/-- LOCK_FILL (R175, R186). -/
def execLockFill (v : Word) (s : State) : Res := (s.ctl (·.maintCmdWrite v)).done

/-- UNLOCK_BY_ADDRESS (R176, R186). -/
def execUnlockByAddress (v : Word) (s : State) : Res := (s.ctl (·.maintCmdWrite v)).done

/-- WAY_WRITE_BACK (R177, R186). -/
def execWayWriteBack (v : Word) (s : State) : Res := (s.ctl (·.maintCmdWrite v)).done

/-- WAY_EVICT (R177, R186). -/
def execWayEvict (v : Word) (s : State) : Res := (s.ctl (·.maintCmdWrite v)).done

/-- WAY_UNLOCK (R177, R186). -/
def execWayUnlock (v : Word) (s : State) : Res := (s.ctl (·.maintCmdWrite v)).done

/-! ### The age sweep (R168, R179) -/

/-- Handle the persistent tag parity errors of a set, one way at a time. -/
def tagSweep (set : Nat) : Nat → State → State
  | 0, s => s
  | n + 1, s =>
    match s.tagParity set with
    | some s => if s.saf.safe == .stop then s else tagSweep set n s
    | none => s

/-- Sets with a listed way; every other set is empty. -/
def State.setsUsed (s : State) : List Nat := (s.wp.ways.map (fun e => e.1 / 16)).eraseDups

/-- The visits of the sweep: tag parity errors that the second read no longer shows (`errs`), then persistent ones. -/
def State.sweepTags (s : State) (errs : List Nat) : State :=
  let s := forEach (fun _ s => s.err rWpcErr 4 2 .c none 0) (errs.filter (fun n => decide (n < 4096))) s
  forEach (fun n s => if s.saf.safe == .stop then s else tagSweep n 16 s) s.setsUsed s

/-- Queue a way for an age write-back. -/
def State.queueAge (s : State) (key line : Nat) : State :=
  if s.wp.wbq.any (fun q => q.way == key) then s
  else { s.wake with wp := { s.wp with wbq := s.wp.wbq ++ [⟨key, line, true, false⟩] } }

/-- Start of a sixteenth: lines whose stamp expires are queued, and every dirty line above seven eighths of the quota
(R167). -/
def State.ageSweep (s : State) (errs : List Nat) : State :=
  let n := (s.wp.sixteenth + 1) % 16
  let s := ({ s with wp := { s.wp with sixteenth := n } }).sweepTags errs
  if s.saf.safe == .stop then s
  else
    let all := decide (7 * s.dirtyQuota < 8 * s.dirtyCnt)
    forEach (fun (e : Nat × Way) s =>
      if all || e.2.stamp == (n + 1) % 16 then s.queueAge e.1 (wayLine e.1 e.2) else s) s.dirtyWays s

/-- AGE_SWEEP_START (R168, R179). -/
def execAgeSweepStart (errs : List Nat) (s : State) : Res :=
  State.done (if s.live then s.withVotes usesHome (·.ageSweep errs) else s)

/-- The oldest queued write-back takes a slot and registers; `parityErr`: the way's data fails its parity (R178). -/
def State.nextWriteback (s : State) (parityErr : Bool) : State :=
  match s.wp.wbq with
  | [] => s
  | q :: r =>
    let y := s.way q.way
    let drop := { s with wp := { s.wp with wbq := r } }
    if !y.valid || wayLine q.way y != q.line || !y.dirty then drop
    else match drop.takeSlot (sliceOf q.line) .maint with
      | none => s
      | some x =>
        let s := if parityErr then x.2.setWay q.way { y with dataBad := true } else x.2
        let s := s.count 0x24 { addr := some (lineAddr q.line) }
        (s.register x.1 { Slot.blank .writeBack .self q.line with todo := [.cleanWay q.way q.drop] }).settle

/-- WAYPOINT_WRITEBACK (R169, R178). -/
def execWaypointWriteback (parityErr : Bool) (s : State) : Res :=
  State.done (if s.live && !(s.wp.wbq.isEmpty) then s.withVotes usesHome (·.nextWriteback parityErr) else s)

/-! ### Background reads of frames (R191, R192, R196, R197) -/

/-- The number that stands for background work in the frame interlock: no transaction slot. -/
def noSlot : Nat := 4096

/-- A maintenance transaction of the device's own on a line (R174). -/
def State.selfTx (s : State) (kind : TxKind) (line : Nat) : State :=
  match s.takeSlot (sliceOf line) .maint with
  | some r => (r.2.register r.1 (Slot.blank kind .self line)).settle
  | none => s

/-- What a background read of a frame comes to: the verified image, or a wait. -/
inductive BgRead where
  | got (img : FrameImg) (s : State)
  | later (s : State)

/-- The slot of the recall that slot `k` waits for keeps frame `f` open, with its image. -/
def State.recallHolds (s : State) (k line f : Nat) (img : FrameImg) : State :=
  forEach (fun (e : Nat × Slot) s =>
    if e.2.kind == .lineRecall && e.2.forSlot == some k && e.2.line == line then
      s.setSlot e.1 (some { e.2 with fuse := .opened, frameKey := f, frame := some img })
    else s) s.slotList s

/-- An integrity failure in an unrequested read (R196). A move or copy takes an invalidated line along as HI with epoch
0x0000. -/
def State.bgInteg (s : State) (f line : Nat) (st : HState) (img : FrameImg) : BgRead :=
  let alarm := fun (s : State) => s.cryAlarm 3 none (BitVec.ofNat 40 (lineAddr line))
  match s.wayOf line with
  | some w =>
    let r := s.wayFail f line w
    .got r.1 (r.2.writeFrame f r.1)
  | none =>
    if st.lent then
      match s.recallLine noSlot line st .frame none 4 with
      | some s => .later ((alarm s).recallHolds noSlot line f img)
      | none => .later s
    else
      let r := (alarm s).integLoss f line st img
      .got (if st == .hc then voidFrame else r.1) (r.2.writeFrame f r.1)

/-- The candidates of an unrecoverable cache frame are judged in a slot of their own (R197). -/
def State.bgOpen (s : State) (f : Nat) : State :=
  let line := lineOfFrame f 0
  if s.lineOpen line then s
  else match s.takeSlot (sliceOf line) .maint with
    | none => s
    | some r =>
      let o := r.2.newOrder
      (o.2.setSlot r.1 (some { Slot.blank .writeBack .self line with
        order := o.1, regNo := o.1, phase := .place, fuse := .opened, frameKey := f, cands := s.candidates f })).settle

/-- A background read of a frame that serves (R192): `owe`: a corrected image is owed a rewrite (R194). -/
def State.bgRead (s : State) (f : Nat) (e : FrameErr) (owe : Bool) : BgRead :=
  if s.frameBusy noSlot f then .later s
  else
    let s := s.setDie (dieOf f) { s.die (dieOf f) with asleep := false }
    match readImage (s.image f) e with
    | none =>
      match s.parkOf f with
      | some (_, line) =>
        let s := s.parkLost f line none
        .got (s.image f) s
      | none =>
        if f < cacheFrames s.prk.size then .later (s.bgOpen f)
        else .got voidFrame ((s.err rStoErr 5 2 .p none 0 (stoDetail f 0)).hardFault f voidFrame)
    | some (img, fix) =>
      let h := s.holds f img
      let line := (h.map (·.1)).getD 0
      let s := if owe then s.noteFix f img fix none line else s.noteRead f fix none line
      match h with
      | some (line, st, false) => s.bgInteg f line st img
      | _ => .got img s

/-! ### Correction rewrites (R194) -/

/-- The corrected image is written, and verified where that is owed. -/
def State.rewrite (s : State) (c : Correction) (verify : FrameErr) : State :=
  let s := s.writeFrame c.key c.image
  if c.verify then ((s.verifyRead c verify).map State.settle).getD s else s

/-- The oldest rewrite that is owed, unless its frame is open: the frame is read again and takes the corrected image if
nothing has written it since. -/
def State.correct (s : State) (e verify : FrameErr) : State :=
  match s.sto.corrections with
  | [] => s
  | c :: r =>
    let drop := fun (s : State) => { s with sto := { s.sto with corrections := r } }
    if s.frameBusy noSlot c.key then s
    else if s.bypassed c.key || s.image c.key != c.read then drop s
    else match s.bgRead c.key e false with
      | .later s => s
      | .got _ s => if s.image c.key == c.read && !(s.bypassed c.key) then (drop s).rewrite c verify else drop s

/-- CORRECTION_REWRITE (R194, R199). -/
def execCorrectionRewrite (e : FrameErr) (verify : FrameErr) (s : State) : Res :=
  State.done (if s.live && !(s.sto.corrections.isEmpty) then s.withVotes usesHome (·.correct e verify) else s)

/-! ### Lane shift (R203, R204) -/

/-- Logical frame, source slot and destination slot of the next move. -/
def Lane.move (a : Lane) : Nat × Nat × Nat :=
  if 0 < a.gap then ((a.gap - 1 + 8192 - a.start) % 8192, a.gap - 1, a.gap)
  else ((8191 + 8192 - a.start) % 8192, 8192, 0)

/-- The lane shift state after a move, with one owed move less. -/
def Lane.after (a : Lane) : Lane :=
  if 0 < a.gap then { a with gap := a.gap - 1, owed := a.owed - 1 }
  else { a with gap := 8192, start := (a.start + 1) % 8192, owed := a.owed - 1 }

/-- Charge one read and one write to the lane shift budget of a die. -/
def Die.charge (d : Die) : Die := { d with lsReads := d.lsReads - 1, lsWrites := d.lsWrites - 1 }

/-- A move ends: the destination takes the image, unless it is closed. -/
def State.laneEnd (s : State) (n seg f : Nat) (img : FrameImg) : State :=
  let d := s.die n
  let a := tget laneDef d.lanes seg
  let ps := d.pseg seg
  let s := match d.serve n ps a.move.2.2 with
    | some k => (s.putFrame k img).wear n seg ps
    | none => s
  let d := (s.die n).charge
  let s := s.setDie n { d with lanes := tset laneDef d.lanes seg a.after }
  ({ s with sto := { s.sto with corrections := s.sto.corrections.filter (fun c => c.key != f) } }).count 0x2C {}

/-- The line that a move would bring to a closed frame has to be cleaned first (R201): its data is newer than DRAM, or it
is lent and has no other home copy. -/
def State.needsClean (s : State) (line : Nat) (st : HState) : Bool :=
  match s.wayOf line with
  | some w => !(s.way w).dirty && ((s.way w).hstate == .hd || (s.way w).hstate == .hld)
  | none => st == .hd || st.lent

/-- A move whose destination is closed. -/
def State.laneBypass (s : State) (n seg f : Nat) (img : FrameImg) : State :=
  match s.holds f img with
  | none => s.laneEnd n seg f img
  | some (line, st, _) =>
    if s.lineOpen line then s
    else match s.parkOf f with
      | some (k, _) =>
        match s.spillLine k line st (s.frameLine img line) with
        | some s => (s.laneEnd n seg f img).settle
        | none => s
      | none =>
        if s.needsClean line st then s.selfTx .mClean line
        else if st == .hp && (s.wayOf line).isNone then (s.poisonIn line).laneEnd n seg f img
        else s.laneEnd n seg f img

/-- A segment is being retired or closed. -/
def Die.retiring (d : Die) (seg : Nat) : Bool := match d.retire with | some r => r.lseg == seg | none => false

/-- A move may run: moves run, one is owed, and the budget is not spent. -/
def State.laneMay (s : State) (n seg : Nat) : Bool :=
  let d := s.die n
  s.bit rStoCtrl 4 && (tget laneDef d.lanes seg).owed != 0 && d.lsReads != 0 && d.lsWrites != 0 && !(d.retiring seg)
    && !(d.closed.contains seg) && !s.offline && s.live

/-- One move of a segment. -/
def State.laneMove (s : State) (n seg : Nat) (e : FrameErr) : State :=
  let d := s.die n
  let m := (tget laneDef d.lanes seg).move
  let f := (seg * 8192 + m.1) * 8 + n
  if !(s.laneMay n seg) || s.frameBusy noSlot f then s
  else if (d.serve n (d.pseg seg) m.2.1).isNone then s.laneEnd n seg f voidFrame
  else match s.bgRead f e true with
    | .later s => s
    | .got img s =>
      if ((s.die n).serve n (d.pseg seg) m.2.2).isNone then s.laneBypass n seg f img else s.laneEnd n seg f img

/-- LANE_SHIFT_MOVE (R203, R204). -/
def execLaneShiftMove (die : Fin 8) (seg : Fin 512) (e : FrameErr) (s : State) : Res :=
  State.done (if s.laneMay die.val seg.val then s.withVotes usesHome (·.laneMove die.val seg.val e) else s)

/-! ### Retirement and closure (R206, R207, R222) -/

/-- The frame of a retiring segment at the copy pointer. -/
def Retire.frame (r : Retire) (n : Nat) : Nat := (r.lseg * 8192 + r.ptr) * 8 + n

/-- The copy is complete: the map names the spare segment, and the old segment's fault entries are free. -/
def State.retireEnd (s : State) (n : Nat) (r : Retire) : State :=
  let d := s.die n
  let a := tget laneDef d.lanes r.lseg
  (s.setDie n { d with
    retire := none
    retireDue := serase r.lseg d.retireDue
    segMap := tset noneDef d.segMap (r.spare - 512) (some r.lseg)
    lanes := tset laneDef d.lanes r.lseg { r.lane with owed := a.owed, writes := a.writes }
    detours := d.detours.filter (fun e => (e.2.map (·.pseg)) != some r.old)
    closure := d.closure.filter (fun e => (e.2.map Prod.fst) != some r.old) }).err rStoErr 5 6 .c none 0
      (BitVec.ofNat 64 n)

/-- Copy the frame at the pointer and go on to the next. -/
def State.retirePut (s : State) (n : Nat) (r : Retire) (img : FrameImg) : State :=
  let s := match (s.die n).serve n r.spare (laneSlot r.lane r.ptr) with
    | some k => ((s.putFrame k img).wear n r.lseg r.spare).laneCount n r.lseg
    | none => s
  let r' := { r with ptr := r.ptr + 1 }
  let s := { s with sto := { s.sto with corrections := s.sto.corrections.filter (fun c => c.key != r.frame n) } }
  let s := s.setDie n { (s.die n).charge with retire := some r' }
  if r'.ptr < 8192 then s else s.retireEnd n r'

/-- One frame of a retirement, within the lane shift budget. -/
def State.retireCopy (s : State) (n : Nat) (r : Retire) (e : FrameErr) : State :=
  let d := s.die n
  let f := r.frame n
  if d.lsReads = 0 ∨ d.lsWrites = 0 ∨ s.frameBusy noSlot f = true then s
  else if (d.serve n r.old (laneSlot (tget laneDef d.lanes r.lseg) r.ptr)).isNone then s.retirePut n r voidFrame
  else match s.bgRead f e true with
    | .later s => s
    | .got img s => s.retirePut n r img

/-- A park slot's logical segment, the same on every die (R215). -/
def parkSeg (slot : Nat) : Nat := 511 - slot / 4

/-- A segment is closed or being closed on some die. -/
def State.segClosing (s : State) (seg : Nat) : Bool :=
  (List.range 8).any (fun n =>
    let d := s.die n
    d.closed.contains seg || (match d.retire with | some r => r.lseg == seg && r.spare == closingSeg | none => false))

def State.parkSlots (s : State) : List Nat := List.range (s.prk.size * 128)

/-- `gen` advances, never to 0 (R216). -/
def nextGen (g : Nat) : Nat := if g = 0xffff then 1 else g + 1

/-- A PARKED slot leaves a segment that is to be closed: relocated, or unparked where no target is free. -/
def State.evacuate (s : State) (k : Nat) : State :=
  let p := s.pslot k
  match s.parkSlots.find? (fun t => (s.pslot t).pstate == .free && !(s.segClosing (parkSeg t))) with
  | some t =>
    (s.setPslot k { p with pstate := .moving, moved := [], target := some t }).setPslot t
      { (s.pslot t) with
        region := p.region, pstate := .parking, gen := nextGen (s.pslot t).gen, moved := [], next := 0, out := []
        target := none }
  | none =>
    (s.setPslot k { p with pstate := .unparking, moved := [], next := 0, thenClose := true }).err rPrkErr 6 2 .info none
      (p.region * 2 ^ 21)

/-- Treat the park slots of a segment that is to be closed: FREE ones close, PARKED ones leave. -/
def State.parkClear (s : State) (seg : Nat) : State :=
  forEach (fun k s =>
    let p := s.pslot k
    match p.pstate with
    | .free => s.setPslot k { p with pstate := .closed }
    | .parked => s.evacuate k
    | _ => s) (s.parkSlots.filter (fun k => parkSeg k == seg)) s

/-- No park slot of the segment holds a region any more. -/
def State.parkCleared (s : State) (seg : Nat) : Bool :=
  (s.parkSlots.filter (fun k => parkSeg k == seg)).all (fun k =>
    (s.pslot k).pstate == .closed || (s.pslot k).pstate == .lost)

/-- The pointer of a closure goes on; at its end the segment is closed. -/
def State.closeNext (s : State) (n : Nat) (r : Retire) : State :=
  let d := s.die n
  if r.ptr + 1 < 8192 then s.setDie n { d with retire := some { r with ptr := r.ptr + 1 } }
  else (s.setDie n { d with
      retire := none, retireDue := serase r.lseg d.retireDue, closed := sinsert r.lseg d.closed }).err rStoErr 5 7 .c none 0
        (BitVec.ofNat 64 n)

/-- One frame of a segment that is closed: its line is cleaned and invalidated first (R207). -/
def State.closeStep (s : State) (n : Nat) (r : Retire) (e : FrameErr) : State :=
  let s := s.parkClear r.lseg
  let f := r.frame n
  if !(s.parkCleared r.lseg) then s
  else if s.bypassed f || decide (cacheFrames s.prk.size ≤ f) then s.closeNext n r
  else match s.bgRead f e true with
    | .later s => s
    | .got img s =>
      match s.holds f img with
      | some (line, _, _) => if s.lineOpen line then s else s.selfTx .mCleanInval line
      | none => s.closeNext n r

/-- Begin the retirement of a segment that is due: into the lowest free spare segment, or as a closure. -/
def State.retireBegin (s : State) (n seg : Nat) : State :=
  let d := s.die n
  match (List.range 16).find? d.spareFree with
  | some k => s.setDie n { d with retire := some ⟨d.pseg seg, seg, 512 + k, 0, .init⟩ }
  | none => s.setDie n { d with retire := some ⟨d.pseg seg, seg, closingSeg, 0, .init⟩ }

/-- One step of the retirement or closure that is under way or due. -/
def State.retireStep (s : State) (n : Nat) (e : FrameErr) : State :=
  let s := match (s.die n).retire, (s.die n).retireDue with
    | none, seg :: _ =>
      if (s.die n).closed.contains seg then
        s.setDie n { s.die n with retireDue := serase seg (s.die n).retireDue }
      else s.retireBegin n seg
    | _, _ => s
  match (s.die n).retire with
  | none => s
  | some r => if r.spare = closingSeg then s.closeStep n r e else s.retireCopy n r e

/-- RETIREMENT_COPY (R206, R207, R222). -/
def execRetirementCopy (die : Fin 8) (e : FrameErr) (s : State) : Res :=
  State.done (if s.offline || !s.live then s else s.withVotes usesHome (·.retireStep die.val e))

/-! ### Resurfacing (R208) -/

/-- The epoch value that follows, skipping 0 (R183, R208). -/
def nextEpoch (e : Nat) : Nat := if e = 0xffff then 1 else e + 1

/-- Die frames of the cache partition. -/
def State.passEnd (s : State) : Nat := cacheFrames s.prk.size / 8

/-- When every die has finished, the next value is recorded as cleared. -/
def State.passCheck (s : State) : State :=
  if s.sto.passBusy && (List.range 8).all (fun i => decide (s.passEnd ≤ (s.die i).passPos)) then
    { s with sto := { s.sto with passBusy := false, nextClear := true, clearSaved := true } }
  else s

/-- The die goes on to the next frame. -/
def State.passNext (s : State) (n : Nat) : State :=
  let d := s.die n
  (s.setDie n { d with passPos := d.passPos + 1 }).passCheck

/-- One visit of the pass. -/
def State.passVisit (s : State) (n : Nat) (e : FrameErr) : State :=
  let d := s.die n
  let f := d.passPos * 8 + n
  if s.bypassed f then s.passNext n
  else if d.rsReads = 0 ∨ d.rsWrites = 0 then s
  else match s.bgRead f e true with
    | .later s => s
    | .got img s =>
      let d := s.die n
      if frameEpoch img == nextEpoch s.sto.epoch then
        (((s.setDie n { d with rsReads := d.rsReads - 1, rsWrites := d.rsWrites - 1 }).writeFrame f voidFrame).count 0x2D
          {}).passNext n
      else ((s.setDie n { d with rsReads := d.rsReads - 1 }).count 0x2D {}).passNext n

/-- A visit may be made: a pass is in progress, background resurfacing runs, and the die has not finished. -/
def State.passMay (s : State) (n : Nat) : Bool :=
  s.sto.passBusy && s.bit rStoCtrl 5 && decide ((s.die n).passPos < s.passEnd) && !s.offline && s.live

/-- RESURFACING_VISIT (R208). -/
def execResurfacingVisit (die : Fin 8) (e : FrameErr) (s : State) : Res :=
  State.done (if s.passMay die.val then s.withVotes usesHome (·.passVisit die.val e) else s)

/-! ### Persisting (R205, R208, R328) -/

/-- Lifetime counters and pass position of a die go to its system segment. -/
def Die.persist (d : Die) : Die :=
  { d with persisted := tnorm zeroDef (d.life.map (fun e => (e.1, e.2.units))), passSaved := d.passPos }

def State.persistWear (s : State) : State :=
  let s := forEach (fun n s => s.setDie n (s.die n).persist) (List.range 8) s
  { s with saf := { s.saf with log := s.saf.log.map (fun e => { e with saved := true }) } }

/-! ### Test frames (R212, R213) -/

/-- The test image of a test frame. -/
def testImage (tframe : Nat) : FrameImg :=
  bchEncode ((List.range 128).foldl (fun v b => v + (b + tframe) % 256 * 2 ^ (8 * b)) 0 + 2 ^ 1128)

/-- The bits to invert: chosen, and neither `tmark` nor beyond the frame. -/
def State.testFlips (s : State) : List Nat :=
  let use := fun (o lo : Nat) => if s.bit o (lo + 11) then [s.fld o lo 11] else []
  (use rTestFlipA 0 ++ use rTestFlipA 12 ++ use rTestFlipB 0).filter (fun n => decide (n < 1152) && n != 1128)

/-- A test read: the outcome and the corrected positions, without retries, rewrite or fault layer. -/
def State.testRead (s : State) (key : Nat) (e : FrameErr) : State :=
  match bchErrors (tget frameDef s.sto.frames key ^^^ e.e1) with
  | none => { s with sto := { s.sto with testOutcome := 3, testA := 0, testB := 0 } }
  | some ps => { s with sto := { s.sto with
      testOutcome := BitVec.ofNat 2 ps.length, testA := ps.getD 0 0, testB := ps.getD 1 0 } }

/-- A write of STO_TEST_CTRL. -/
def State.testCtrlWrite (s : State) (v : Word) (e : FrameErr) : State :=
  let s := s.writeReg rTestCtrl v
  let n := s.fld rTestCtrl 3 6
  let key := testKey (s.fld rTestCtrl 0 3) n
  if !(v.getLsbD 31) then s
  else if s.bit rTestCtrl 9 then s.testRead key e
  else s.putFrame key (flipBits s.testFlips (testImage n))

/-- SPLIT_WRITE (R212). -/
def execSplitWrite (v : Word) (s : State) : Res := (s.ctl (·.testCtrlWrite v {})).done

/-- TEST_READ (R212). -/
def execTestRead (v : Word) (e : FrameErr) (s : State) : Res := (s.ctl (·.testCtrlWrite v e)).done

/-! ### Sense circuits (R354) -/

/-- STORE_SENSE_POWER_DOWN (R354). -/
def execStoreSensePowerDown (die : Fin 8) (s : State) : Res :=
  State.done (if s.power.idle then s.setDie die.val { s.die die.val with asleep := true } else s)

end Sys2Proof.Machine
end

