-- ==== Sys2Proof/Machine/Channels.lean ====
section
/-! DEFINITION. The LPDDR5X channels at rest and between commands: refresh and RFM (R245, R246), the switch to writes and idle
rows (R241), power states (R253), and retraining (R250). -/
namespace Sys2Proof.Machine

/-- Whether a due refresh or RFM yields, with `owed` postponed already: to a command to its bank, up to 8 (R245). -/
def Chan.yields (c : Chan) (busy : Bool) (owed : Nat) : Bool := c.retraining || (busy && decide (owed < 8))

/-- Refreshes pulled in for an idle bank, up to 8 ahead (R245). -/
def State.pullIn (s : State) (c b pull : Nat) : State :=
  let ch := s.chan c
  let a := tget zeroDef ch.ahead b
  let n := min pull (8 - a)
  (s.setChan c { ch with ahead := tset zeroDef ch.ahead b (a + n) }).emitTimes (.refresh c b) n

/-- How many refreshes the channel pulls in behind one that falls due. -/
def pullsOf : BankUse → Nat
  | .busy => 0
  | .idle n => n.val

/-- A per-bank refresh falls due: already pulled in, postponed, or issued with those that the bank owes; a bank that owes 8
while a command waits gets one (R245). -/
def State.refreshDue (s : State) (c b : Nat) (busy : Bool) (pull : Nat) : State :=
  let ch := s.chan c
  let owed := tget zeroDef ch.owed b
  let a := tget zeroDef ch.ahead b
  if !s.mem.trained || ch.pstate.selfKept then s
  else if a ≠ 0 then
    let s := s.setChan c { ch with ahead := tset zeroDef ch.ahead b (a - 1) }
    if busy || ch.retraining then s else s.pullIn c b pull
  else if ch.yields busy owed then s.setChan c { ch with owed := tset zeroDef ch.owed b (min 8 (owed + 1)) }
  else if busy then (s.emitTimes (.refresh c b) 1).rollBack c b
  else (((s.setChan c { ch with owed := tset zeroDef ch.owed b 0 }).emitTimes (.refresh c b) (owed + 1)).rollBack c b).pullIn
    c b pull

/-- REFRESH_DUE (R244, R245). -/
def execRefreshDue (ch : Fin 16) (bank : Fin 32) (use : BankUse) (s : State) : Res :=
  (s.refreshDue ch.val bank.val (use == .busy) (pullsOf use)).done

/-- Refresh management is required, and the bank's rolling activate count has reached the threshold (R246). -/
def State.rfmReached (s : State) (c b : Nat) : Bool :=
  match s.mem.rfm with
  | some n => decide (n ≤ tget zeroDef (s.chan c).activates b)
  | none => false

/-- RFM for a bank, which yields as refresh does (R246). -/
def State.rfmDue (s : State) (c b : Nat) (busy : Bool) : State :=
  let ch := s.chan c
  let owed := tget zeroDef ch.rfmOwed b
  if ch.pstate.selfKept || !(s.rfmReached c b) then s
  else if ch.yields busy owed then s.setChan c { ch with rfmOwed := tset zeroDef ch.rfmOwed b (min 8 (owed + 1)) }
  else if busy then (s.emitTimes (.rfm c b) 1).rollBack c b
  else ((s.setChan c { ch with rfmOwed := tset zeroDef ch.rfmOwed b 0 }).emitTimes (.rfm c b) (owed + 1)).rollBack c b

/-- RFM_DUE (R246). -/
def execRfmDue (ch : Fin 16) (bank : Fin 32) (busy : Bool) (s : State) : Res := (s.rfmDue ch.val bank.val busy).done

/-- WRITE_AGE_SWITCH (R241): a queued write has waited 3,072 fc. -/
def execWriteAgeSwitch (ch : Fin 16) (s : State) : Res :=
  let c := s.chan ch.val
  State.done (if c.writes.isEmpty then s else (s.setChan ch.val { c with draining := true }).chanGo ch.val)

/-- ROW_IDLE_CLOSE (R241). -/
def execRowIdleClose (ch : Fin 16) (bank : Fin 32) (s : State) : Res :=
  let c := s.chan ch.val
  State.done (if (tget noneDef c.rows bank.val).isNone then s
    else (s.setChan ch.val { c with rows := tset noneDef c.rows bank.val none }).emit (.precharge ch.val bank.val))

/-- No command is queued or under way. -/
def Chan.idle (c : Chan) : Bool := c.reads.isEmpty && c.writes.isEmpty && c.offers.isEmpty && !c.retraining

/-- POWER_DOWN_ENTRY (R253). -/
def execPowerDownEntry (ch : Fin 16) (s : State) : Res :=
  let c := s.chan ch.val
  State.done (if c.pstate == .active && c.idle && c.rows.isEmpty && s.fld rMemPwr 0 16 != 0 then
    s.setChan ch.val { c with pstate := .powerDown } else s)

/-- Every open bank of a channel is precharged. -/
def State.prechargeAll (s : State) (c : Nat) : State :=
  let ch := s.chan c
  forEach (fun (e : Nat × Option Nat) s => s.emit (.precharge c e.1)) ch.rows (s.setChan c { ch with rows := [] })

/-- SELF_REFRESH_ENTRY (R253): in Idle. -/
def execSelfRefreshEntry (ch : Fin 16) (s : State) : Res :=
  let c := s.chan ch.val
  State.done (if s.power.idle && c.idle && (c.pstate == .active || c.pstate == .powerDown) && s.fld rMemPwr 16 16 != 0 then
      let s := s.prechargeAll ch.val
      s.setChan ch.val { s.chan ch.val with pstate := .selfRefresh }
    else s)

/-- CHANNEL_RETRAIN (R250): more than 16 link ECC corrections within the tick. -/
def execChannelRetrain (ch : Fin 16) (s : State) : Res :=
  let c := s.chan ch.val
  State.done (if c.retraining || c.eccTick ≤ 16 then s
    else (s.setChan ch.val { c with retraining := true, retrainCnt := satInc c.retrainCnt 255, eccTick := 0 }).err rMemErr 7 4
      .c none 0)

/-- A retraining ends: read DQ and write DQ are trained anew, the delays found are free values, and what waited goes on. -/
def State.retrained (s : State) (c : Nat) : State :=
  if (s.chan c).retraining then
    let f := s.fresh
    let g := f.2.fresh
    (g.2.setChan c { g.2.chan c with retraining := false, rdqDelay := f.1, wdqDelay := g.1 }).chanGo c
  else s

/-- CHANNEL_RETRAIN_DONE (R250). -/
def execChannelRetrainDone (ch : Fin 16) (s : State) : Res := (s.retrained ch.val).done

end Sys2Proof.Machine
end

