-- ==== Sys2Proof/Machine/Parking.lean ====
section
/-! DEFINITION. Parking: park and unpark with their line moves (R219 to R222), spills, resizing (R185, R210, R224), vacancy
(R225), release of LOST slots (R229), and the end of a pave (R271, R273). -/
namespace Sys2Proof.Machine

/-! ### Park and unpark begin (R219 to R221) -/

/-- First address of a 2 MiB region. -/
def regionBase (region : Nat) : Nat := region * 2 ^ 21

/-- A byte of the range lies in an integrity window. -/
def State.rangeInteg (s : State) (a n : Nat) : Bool :=
  s.windows.any (fun w => s.winInteg w &&
    decide (a < (s.winLimit w + 1) * 65536) && decide (s.winBase w * 65536 < a + n))

/-- The region lies in an integrity window that has an unpaved granule (R219). -/
def State.parkUnpaved (s : State) (region : Nat) : Bool :=
  s.windows.any (fun w =>
    let a := s.winBase w
    let b := s.winLimit w + 1
    s.winInteg w && decide (a * 65536 < regionBase (region + 1)) && decide (regionBase region < b * 65536)
      && decide ((s.cry.paved.filter (fun g => decide (a ≤ g) && decide (g < b))).length < b - a))

/-- A park of a region into a slot is refused (R219). -/
def State.parkRefused (s : State) (region slot : Nat) : Bool :=
  decide (s.prk.size * 128 ≤ slot) || (s.pslot slot).pstate != .free || decide (s.memBytes ≤ regionBase region)
    || !(s.regionSlots region).isEmpty || s.prk.resize.isSome || s.parkUnpaved region

/-- A park begins (R220). -/
def State.parkBegin (s : State) (region slot : Nat) : State :=
  let p := s.pslot slot
  let s := s.setPslot slot
    { p with
      region := region, pstate := .parking, gen := nextGen p.gen, moved := [], next := 0, out := [], target := none
      thenClose := false }
  { s with prk := { s.prk with vacant := serase region s.prk.vacant } }

/-- An unpark of a slot is refused (R221, R224). -/
def State.unparkRefused (s : State) (slot : Nat) : Bool := (s.pslot slot).pstate != .parked || s.prk.resize.isSome

def State.unparkBegin (s : State) (slot : Nat) : State :=
  s.setPslot slot { s.pslot slot with pstate := .unparking, moved := [], next := 0, thenClose := false }

/-! ### Line moves -/

/-- A park slot whose moves have all completed: PARKED, or UNPARKING where lines had to leave for want of room in the spill
list (R223). -/
def PSlot.parkedNow (p : PSlot) : PSlot :=
  if p.out.isEmpty then { p with pstate := .parked, moved := [], next := 0 }
  else { p with pstate := .unparking, moved := p.out, next := 0, out := [] }

/-- The move of a line has completed; the last one ends the park or the relocation (R220, R222). -/
def State.parkMoved (s : State) (k j : Nat) : State :=
  let add := fun (p : PSlot) => { p with moved := sinsert j p.moved }
  let p := add (s.pslot k)
  let full := decide (16384 ≤ p.moved.length)
  let s := s.setPslot k (if full then p.parkedNow else p)
  match s.prk.slots.find? (fun e => e.2.pstate == .moving && e.2.target == some k) with
  | some e =>
    s.setPslot e.1 (if full then { e.2 with pstate := .closed, moved := [], target := none } else add e.2)
  | none => s

/-- A closed slot is one with a frame in a closed segment (R222). -/
def State.freeState (s : State) (k : Nat) (thenClose : Bool) : PState :=
  if thenClose || s.segClosing (parkSeg k) then .closed else .free

/-- An unparked line; the last one frees the slot (R221). -/
def State.unparkMoved (s : State) (k j : Nat) : State :=
  let p := s.pslot k
  let p := { p with moved := sinsert j p.moved }
  s.setPslot k (if 16384 ≤ p.moved.length then
    { p with pstate := s.freeState k p.thenClose, moved := [], next := 0, thenClose := false } else p)

/-- The transaction of a line move ends. -/
def State.moveEnd (s : State) (m : Nat) : State := s.freeSlot m

/-- Write the line to the park frame that serves it once its move has completed; a line of a bypassed park frame spills
(R220, R223). `m` is the slot of the move. -/
def State.parkPut (s : State) (m k j line : Nat) (st : HState) (d : Line) : State :=
  let e := s.moveEnd m
  if s.bypassed (parkFrame k j) then
    match e.spillLine k line st d with
    | some s => s.parkMoved k j
    | none => s
  else
    let s := ((e.parkMoved k j).writeLineFrame line (parkState st) d).poisonFree line
    let s := match s.wayOf line with
      | some w => s.putWay w { (s.way w).setDirty false with hstate := parkState st }
      | none => s
    s.count 0x39 { addr := some (lineAddr line) }

/-- The reads of a line that a move makes outside a slot's queue entries: the line, and the tag line that the buffer lacks. -/
def State.dramFetch (s : State) (line : Nat) : Bool × State :=
  let s := s.chanPass line false
  match s.integWin line with
  | some w =>
    let a := (s.tagPlace w line).1
    if (s.tagFind (tagbufKey line a) a).isNone then (true, s.chanPass (a / 128) false) else (false, s)
  | none => (false, s)

/-- The move of a line whose home copy is DRAM (R220, R247, R270). -/
def State.parkDram (s : State) (m k j line : Nat) (d : DramIn) : State :=
  if s.poisonListed line then s.parkPut m k j line .hp 0
  else
    let f := s.dramFetch line
    let r := f.2.dramArrive line none f.1 d
    match r.1 with
    | .data x => r.2.parkPut m k j line .hd x
    | .badTag =>
      (((r.2.cryAlarm 3 none (BitVec.ofNat 40 (lineAddr line))).logEvent 8 0x80 .p none (lineAddr line)).cancelLine
        line).parkPut m k j line .hp 0
    | _ => (r.2.cancelLine line).parkPut m k j line .hp 0

/-- Read the frame that a line may have in the cache partition; a copy of it there is rewritten as HI (R220). The copy comes
with it. -/
def State.takeCopy (s : State) (line : Nat) (e : FrameErr) : Option (Option (HState × Line) × State) :=
  let p := s.placeOf line
  if s.bypassed p.frame then some (none, s)
  else match s.bgRead p.frame e true with
    | .later _ => none
    | .got img s =>
      let out := fun (c : HState × Line) => some (some c, s.writeFrame p.frame (s.frameAt p line .hi 0))
      match s.judge p line img with
      | .hit st => out (st, s.frameLine img line)
      | .poison => out (.hp, 0)
      | _ => some (none, s)

/-- What a wait leaves: the work that the read itself has started. -/
def State.bgWait (s : State) (f : Nat) (e : FrameErr) : State :=
  match s.bgRead f e true with
  | .later s => s
  | .got _ _ => s

/-- A way whose data fails its parity is dealt with before its line moves (R178). -/
def State.moveRepair (s : State) (m w : Nat) : State :=
  match s.slot m with
  | some t => (s.wayParity m w t).getD s
  | none => s

/-- A line move of a park (R220). -/
def State.parkLine (s : State) (m k j line : Nat) (e : FrameErr) (d : DramIn) : State :=
  match s.wayOf line with
  | some w =>
    let y := s.way w
    if y.dataBad then s.moveRepair m w
    else match s.takeCopy line e with
      | none => s.bgWait (s.placeOf line).frame e
      | some r => r.2.parkPut m k j line y.hstate y.data
  | none =>
    match s.takeCopy line e with
    | none => s.bgWait (s.placeOf line).frame e
    | some (some c, s) => s.parkPut m k j line c.1 c.2
    | some (none, s) => s.parkDram m k j line d

/-- A line move of a relocation, from the park frame of slot `src` (R222): a spilled line stays where it is. -/
def State.relocateLine (s : State) (m src k j line : Nat) (e : FrameErr) : State :=
  if s.prk.spill.contains line then (s.moveEnd m).parkMoved k j
  else match s.wayOf line with
    | some w =>
      if (s.way w).dataBad then s.moveRepair m w
      else s.parkPut m k j line (s.way w).hstate (s.way w).data
    | none =>
      match s.bgRead (parkFrame src j) e true with
      | .later s => s
      | .got img s =>
        if s.served line == .park src then s.parkPut m k j line (frameHs img) (s.frameLine img line)
        else (s.moveEnd m).parkMoved k j

/-- The transaction of a line's move, ordered and with nothing before it on the line. -/
def State.moveSlot (s : State) (k line : Nat) : Option Nat :=
  (s.slotList.find? (fun e => e.2.kind == .parkMove && e.2.agent == k && e.2.line == line && e.2.phase == .lookup
    && e.2.fuse == .no && e.2.dram == .no && !(s.lookFirst e.1 e.2) && !(s.child e.1)
    && (s.victimOf line).isNone)).map Prod.fst

/-- PARK_LINE_MOVE (R220, R222). -/
def execParkLineMove (slot : Fin 1024) (line : Fin 16384) (e : FrameErr) (d : DramIn) (s : State) : Res :=
  let k := slot.val
  let j := line.val
  let p := s.pslot k
  let x := p.region * 16384 + j
  State.done (if !s.live || p.pstate != .parking then s
    else match s.moveSlot k x, s.prk.slots.find? (fun e => e.2.pstate == .moving && e.2.target == some k) with
      | some m, some src => s.withVotes usesHome (fun s => (s.relocateLine m src.1 k j x e).settle)
      | some m, none => s.withVotes usesHome (fun s => (s.parkLine m k j x e d).settle)
      | none, _ => s)

/-- A line leaves its park frame: the move has completed, the line goes to DRAM, and leaves the spill list (R221, R223). -/
def State.unparkPut (s : State) (m k j line : Nat) (st : HState) (d : Line) : State :=
  match ((s.moveEnd m).unparkMoved k j).lineToDram .dma line st d with
  | some s => s.count 0x39 { addr := some (lineAddr line) }
  | none => s

/-- A line move of an unpark. -/
def State.unparkLine (s : State) (m k j line : Nat) (e : FrameErr) : State :=
  if s.prk.spill.contains line then
    let s := (s.moveEnd m).unparkMoved k j
    { s with prk := { s.prk with spill := serase line s.prk.spill } }
  else match s.wayOf line with
    | some w =>
      if (s.way w).dataBad then s.moveRepair m w
      else s.unparkPut m k j line (s.way w).hstate (s.way w).data
    | none =>
      match s.bgRead (parkFrame k j) e true with
      | .later s => s
      | .got img s =>
        if s.served line == .park k then s.unparkPut m k j line (frameHs img) (s.frameLine img line)
        else (s.moveEnd m).unparkMoved k j

/-- UNPARK_LINE_MOVE (R221). -/
def execUnparkLineMove (slot : Fin 1024) (line : Fin 16384) (e : FrameErr) (s : State) : Res :=
  let k := slot.val
  let j := line.val
  let p := s.pslot k
  let x := p.region * 16384 + j
  State.done (if !s.live || p.pstate != .unparking then s
    else match s.moveSlot k x with
      | some m => s.withVotes usesHome (fun s => (s.unparkLine m k j x e).settle)
      | none => s)

/-! ### Resizing (R185, R210, R224) -/

/-- The line that a cache frame holds. -/
def State.heldLine (s : State) (f : Nat) : Option Nat :=
  if s.bypassed f then none else (s.holds f (s.image f)).map (·.1)

/-- Lines held in frames whose mapping changes with the new size (R185). -/
def State.resizeLines (s : State) (n : Nat) : List Nat :=
  let co := cacheFrames s.prk.size
  let cn := cacheFrames n
  if cn < co then (List.range (co - cn)).filterMap (fun i => s.heldLine (cn + i))
  else (List.range (cn - co)).filterMap (fun i =>
    let f := co - 2 ^ 24 + i
    (s.heldLine f).filter (fun line => decide (32 ≤ (frameOf s.prk.size line).2)))

/-- A slot that a shrink would remove still holds a region. -/
def State.shrinkRefused (s : State) (n : Nat) : Bool :=
  (List.range (s.prk.size * 128 - n * 128)).any (fun i =>
    let p := s.pslot (n * 128 + i)
    p.pstate != .free && p.pstate != .closed)

/-- A write of PRK_CTRL (R224). -/
def State.parkSizeWrite (s : State) (v : Word) : State :=
  let n := min 8 (field v 0 4)
  if s.prk.resize.isSome then s
  else if s.shrinkRefused n then s.err rPrkErr 6 0 .info none 0
  else
    let s := s.writeReg rPrkCtrl v
    if n = s.prk.size then s
    else ({ s with prk := { s.prk with resize := some n, resizeDue := s.resizeLines n } }).settle

/-- PARK_SIZE_WRITE (R224). -/
def execParkSizeWrite (v : Word) (s : State) : Res := (s.ctl (·.parkSizeWrite v)).done

/-- Frames that come to the cache partition are written as HI with epoch 0x0000 (R210). -/
def State.clearFrames (s : State) (a n : Nat) : State :=
  forEach (fun i s => s.writeFrame (a + i) voidFrame) (List.range n) s

/-- The size changes: slots of the new partition with a frame in a closed segment are CLOSED (R222). -/
def State.resizeEnd (s : State) (n : Nat) : State :=
  let co := cacheFrames s.prk.size
  let s := s.clearFrames co (cacheFrames n - co)
  let s := ({ s with prk := { s.prk with size := n, sizeSaved := n, resize := none } }).passCheck
  forEach (fun k s =>
    let p := s.pslot k
    if p.pstate == .free && s.segClosing (parkSeg k) then s.setPslot k { p with pstate := .closed } else s) s.parkSlots s

/-- A transaction has a frame whose mapping changes open, or writes it still (R185). -/
def State.frameChanges (s : State) (n : Nat) (t : Slot) : Bool :=
  (t.fuse != .no || t.wrImg.isSome || t.todo.any Act.frames || t.dram != .no)
    && (frameOf s.prk.size t.line != frameOf n t.line)

/-- The resize completes once no frame whose mapping changes holds a line and no such line is being treated. -/
def State.resizeDone (s : State) : State :=
  match s.prk.resize with
  | none => s
  | some n =>
    if !s.prk.resizeDue.isEmpty || s.slotList.any (fun e => e.2.kind == .mCleanInval || s.frameChanges n e.2) then s
    else match s.resizeLines n with
      | [] => s.resizeEnd n
      | r => ({ s with prk := { s.prk with resizeDue := r } }).settle

/-- RESIZE_DONE (R185, R210, R224). -/
def execResizeDone (s : State) : Res := State.done (if s.live then s.resizeDone else s)

/-! ### Vacancy and release (R225, R229) -/

/-- Why a vacancy operation is refused; 0: it is done. -/
def State.vacRefused (s : State) (first n : Nat) : Nat :=
  if s.memBytes < regionBase (first + n) then 1
  else if s.prk.slots.any (fun e => e.2.pstate != .free && e.2.pstate != .closed && decide (first ≤ e.2.region)
      && decide (e.2.region < first + n)) then 2
  else if s.rangeInteg (regionBase first) (regionBase n) then 3 else 0

/-- A write of PRK_VAC_CMD. -/
def State.vacCmdWrite (s : State) (v : Word) : State :=
  let s := s.writeReg rVacCmd v
  if !(v.getLsbD 31) || s.prk.vacBusy then s
  else
    let first := s.fld rVacBase 0 16
    let n := max 1 (field v 0 17)
    let r := s.vacRefused first n
    let out := s.prk.vacant.filter (fun x => decide (x < first) || decide (first + n ≤ x))
    let vac := if r ≠ 0 then s.prk.vacant
      else if v.getLsbD 17 then out
      else out.filter (fun x => decide (x < first)) ++ (List.range n).map (first + ·)
        ++ out.filter (fun x => decide (first < x))
    { s with prk := { s.prk with vacant := vac, vacResult := BitVec.ofNat 2 r } }

/-- VACANCY_DECLARE (R225). -/
def execVacancyDeclare (v : Word) (s : State) : Res := (s.ctl (·.vacCmdWrite v)).done

/-- VACANCY_WITHDRAW (R225). -/
def execVacancyWithdraw (v : Word) (s : State) : Res := (s.ctl (·.vacCmdWrite v)).done

/-- A write of PRK_RELEASE: a LOST slot becomes FREE and its region vacant (R229). -/
def State.releaseWrite (s : State) (v : Word) : State :=
  let s := s.writeReg rPrkRelease v
  let k := field v 0 10
  let p := s.pslot k
  if !(v.getLsbD 31) || p.pstate != .lost then s
  else
    let s := s.setPslot k { p with pstate := s.freeState k false }
    { s with prk := { s.prk with vacant := sinsert p.region s.prk.vacant } }

/-- SLOT_RELEASE (R229). -/
def execSlotRelease (v : Word) (s : State) : Res := (s.ctl (·.releaseWrite v)).done

/-! ### Paving (R273) -/

/-- A pave ends: the granule is zero, its bit is set, and the next granule that waits is taken up. -/
def State.paveDone (s : State) (g : Nat) : State :=
  let s := s.paveGranule g
  let c := s.cry
  let on := serase g c.paving
  let s := { s with cry := { c with paving := on ++ c.paveWait.take 1, paveWait := c.paveWait.drop 1 } }
  (s.count 0x36 { addr := some (g * 65536) }).settle

/-- PAVE_DONE (R271, R273). -/
def execPaveDone (granule : BitVec 21) (s : State) : Res :=
  State.done (if s.cry.paving.contains granule.toNat && s.live then s.paveDone granule.toNat else s)

end Sys2Proof.Machine
end

