-- ==== Sys2Proof/Machine/Dma.lean ====
section
/-! DEFINITION. The DMA engine: descriptor lists and tokens (R278 to R280), operations (R281 to R285), completion (R286,
R287), stopping (R288, R289), shadow hand-over (R291, R292) and DMA_CH_CTRL (R294). -/
namespace Sys2Proof.Machine

/-- Channels 48 to 63 are persistent (R277). -/
def persistent (n : Nat) : Bool := decide (48 ≤ n)

/-! ### Access checks (R263, R264, R286) -/

/-- The reason for which an access of a channel is refused, with its alarm. -/
def State.dmaCheck (s : State) (ad a n : Nat) (rd wr : Bool) : Option (Nat × State) :=
  let at_ : Attr := { addr := some a }
  if s.memBytes < a + n then some (2, s)
  else if s.inTagArea a n then some (4, (s.cryAlarm 1 none (BitVec.ofNat 40 a)).count 0x37 at_)
  else if !(s.adPermits ad rd wr a n) then some (3, (s.cryAlarm 0 none (BitVec.ofNat 40 a)).count 0x37 at_)
  else none

def State.dmaAd (s : State) (n : Nat) : Nat := s.fld (rDmaCtrl n) 2 4

/-! ### Fetching (R279) -/

/-- A list that has been fetched to its end: nothing is fetched behind a `last` or a LINK. -/
def Desc.ends (d : Desc) : Bool := d.last || d.op == 0xf

def DmaCh.listEnd (c : DmaCh) : Bool := (c.cur.toList ++ c.descs).any Desc.ends

/-- The home takes the engine's transactions: in traffic, and while a stop waits for the channels (R290, R339, R365). -/
def State.dmaOpen (s : State) : Bool :=
  (s.power.boot == .run || s.power.boot == .standbyEntry || s.power.boot == .shutdown) && !s.saf.drainBusy
    && s.saf.safe != .stop

/-- Tokens that the next descriptor line takes. -/
def DmaCh.lineTokens (c : DmaCh) : Nat := 4 - c.fetchAddr % 128 / 32

/-- A channel may start the fetch of its next descriptor line (R279). -/
def State.dmaMayFetch (s : State) (n : Nat) : Bool :=
  let c := s.dch n
  s.dmaOpen && c.state == .run && !c.fetchBusy && c.fetched.isNone && !c.listEnd
    && decide (c.tokens + c.lineTokens ≤ 8) && decide (c.lineTokens ≤ s.tokensFree)

/-! ### Lines of a descriptor (R281, R283) -/

/-- Lines that hold a byte of a range. -/
def rangeLines (base len : Nat) : Nat := if len = 0 then 0 else (base + len - 1) / 128 - base / 128 + 1

/-- First byte and length of the part of a range that line `j` of it holds. -/
def rangePart (base len j : Nat) : Nat × Nat :=
  let a := max base ((base / 128 + j) * 128)
  (a, min (base + len) ((base / 128 + j + 1) * 128) - a)

/-- The bytes `a` to `a + n - 1` of memory out of the source lines that a COPY has read. -/
def Prog.bytes (g : Prog) (src a n : Nat) : Nat :=
  let i := a / 128 - src / 128
  let lo := ((tget noneDef g.buf i).getD 0).toNat
  let hi := ((tget noneDef g.buf (i + 1)).getD 0).toNat
  subNat (lo + hi * 2 ^ 1024) (a % 128) n

/-- The pattern of a FILL over a line. -/
def fillLine (param : BitVec 64) : Line :=
  (List.range 16).foldl (fun l i => l ||| natLine param.toNat (8 * i) 8) 0

/-- A line access that a channel issues. -/
structure DmaAcc where
  kind : TxKind
  addr : Nat
  size : Nat
  data : Line
  bad : Bool
  prog : Prog
deriving DecidableEq, Repr

/-- The access masks of a kind. -/
def DmaAcc.masks (a : DmaAcc) : Bool × Bool :=
  if a.kind == .rdOnce || a.kind == .mClean then (true, false) else (false, true)

def writeKind (n : Nat) : TxKind := if n = 128 then .wrFull else .wrPtl

/-- The first source line, of those of the COPY, that feeds destination line `j`. -/
def Desc.feeds (d : Desc) (j : Nat) : Nat :=
  (d.src.toNat + ((rangePart d.dst.toNat d.length j).1 - d.dst.toNat)) / 128 - d.src.toNat / 128

/-- The write of destination line `j` is issued: the lines in front of the lowest one that is left need no more data. -/
def Prog.wrote (g : Prog) (d : Desc) (j : Nat) : Prog :=
  let early := sinsert j g.early
  let next := ((List.range (early.length + 1)).map (g.nextWrite + ·)).find? (fun i => !(early.contains i))
  let next := next.getD g.nextWrite
  { g with
    nextWrite := next, early := early.filter (fun i => decide (next < i)), inFlight := g.inFlight + 1
    buf := g.buf.filter (fun e => decide (d.feeds next ≤ e.1)) }

/-- The write of destination line `j` of a COPY, once its source lines have arrived (R283). -/
def copyLine (d : Desc) (g : Prog) (j : Nat) : Option DmaAcc :=
  let src := d.src.toNat
  let dst := d.dst.toNat
  let q := rangePart dst d.length j
  let a := src + (q.1 - dst)
  let first := d.feeds j
  let last := (a + q.2 - 1) / 128 - src / 128
  if g.early.contains j || (tget noneDef g.buf first).isNone || (tget noneDef g.buf last).isNone then none
  else some ⟨writeKind q.2, q.1, q.2, natLine (g.bytes src a q.2) (q.1 % 128) q.2,
    g.poisonLines.contains first || g.poisonLines.contains last, g.wrote d j⟩

/-- The lowest write of a COPY whose bytes have arrived; writes to different lines need no order (R283). -/
def copyWrite (d : Desc) (g : Prog) : Option DmaAcc :=
  let n := min (rangeLines d.dst.toNat d.length) (g.nextRead + 2) - g.nextWrite
  (List.range n).findSome? (fun i => copyLine d g (g.nextWrite + i))

/-- The next access of the descriptor that runs. -/
def DmaCh.nextAcc (c : DmaCh) : Option DmaAcc :=
  let g := c.prog
  match c.cur with
  | none => none
  | some d =>
    let src := d.src.toNat
    if d.op = 1 then
      match copyWrite d g with
      | some a => some a
      | none =>
        if rangeLines src d.length ≤ g.nextRead then none
        else
          let q := rangePart src d.length g.nextRead
          some ⟨.rdOnce, q.1, q.2, 0, false, { g with nextRead := g.nextRead + 1, inFlight := g.inFlight + 1 }⟩
    else if d.op = 2 ∨ d.op = 6 ∨ d.op = 7 ∨ d.op = 8 then
      if rangeLines src d.length ≤ g.nextWrite then none
      else
        let q := rangePart src d.length g.nextWrite
        let k := if d.op = 2 then writeKind q.2 else if d.op = 6 then .mClean else if d.op = 7 then .mInval else .mCleanInval
        some ⟨k, q.1, q.2, if d.op = 2 then mergeLine 0 (fillLine d.param) (byteMask (q.1 % 128) q.2) else 0, false,
          { g with nextWrite := g.nextWrite + 1, inFlight := g.inFlight + 1 }⟩
    else none

/-- The channel may issue: it runs, or is persistent and finishes its descriptor before it stops; no access was refused
(R287 to R289). -/
def DmaCh.mayIssue (c : DmaCh) (n : Nat) : Bool :=
  (c.state == .run || (c.state == .stopping && persistent n)) && c.prog.badReason == 0 && !c.prog.halted
    && (match c.fetched with | some (none, _) => false | _ => true)

/-- `depth` + 1 lines may be in flight (R281). -/
def State.dmaRoom (s : State) (n : Nat) : Bool := s.dmaOpen && decide ((s.dch n).prog.inFlight ≤ s.fld (rDmaCtrl n) 6 4)

/-- The range that a COPY or FILL writes starts here. -/
def Desc.wrBase (d : Desc) : Nat := if d.op = 1 then d.dst.toNat else d.src.toNat

/-- The line of the read-back of a COPY or FILL (R285). -/
def Desc.backLine (d : Desc) : Nat := (d.wrBase + d.length - 1) / 128

/-- Every write of a COPY or FILL has been issued and ordered (R102, R285). -/
def State.dmaWritten (s : State) (n : Nat) (d : Desc) : Bool :=
  decide (rangeLines d.wrBase d.length ≤ (s.dch n).prog.nextWrite)
    && s.slotList.all (fun e => e.2.org != .dma n || !(e.2.unordered))

/-- A channel may issue the read-back of its COPY or FILL (R285). -/
def State.dmaMayBack (s : State) (n : Nat) (d : Desc) : Bool :=
  let c := s.dch n
  s.dmaOpen && c.mayIssue n && (d.op == 1 || d.op == 2) && s.dmaWritten n d && c.prog.readBack == 0

/-- The pool of a channel's access (R281). -/
def TxKind.dmaPool (k : TxKind) : Pool :=
  match k with
  | .mClean | .mInval | .mCleanInval => .maint
  | _ => .dma

/-- A slice's pool has room for a channel's transaction. -/
def State.dmaFits (s : State) (line : Nat) (p : Pool) : Bool := !((s.poolFree (sliceOf line) p).isEmpty)

/-- Lines, with their pool, for which a channel competes: an access, a read-back, a descriptor fetch (R279, R281, R285). -/
def State.dmaWants (s : State) (n : Nat) : List (Nat × Pool) :=
  let c := s.dch n
  (if c.mayIssue n && s.dmaRoom n then (c.nextAcc.map (fun a => (a.addr / 128, a.kind.dmaPool))).toList else [])
    ++ (match c.cur with
        | some d => if s.dmaMayBack n d then [(d.backLine, .dma)] else []
        | none => [])
    ++ (if s.dmaMayFetch n then [(c.fetchAddr / 128, .dma)] else [])

/-- Channels that compete for the DMA inlet of a slice (R282). -/
def State.dmaCands (s : State) (slice : Nat) : List (Nat × Nat) :=
  s.dma.filterMap (fun e =>
    if (s.dmaWants e.1).any (fun w => sliceOf w.1 == slice && s.dmaFits w.1 w.2) then some (e.1, 0) else none)

/-- A channel takes a slot of a line's slice, if the roundabout of the DMA inlet grants it one (R282). -/
def State.dmaSlot (s : State) (n line : Nat) (p : Pool) : Option (Nat × State) :=
  let slice := sliceOf line
  if s.wins (710 + slice) 64 (s.dmaCands slice) (n, 0) then
    (s.takeSlot slice p).map (fun r => (r.1, (r.2.granted (710 + slice) 64 n).count 0x39 { addr := some (line * 128) }))
  else none

/-- What a channel's access checks read: its own domain, and the domain checks (R263, R335). -/
def usesDma (n o : Nat) : Bool := o == rDmaCtrl n || usesDomains o

/-- Start the fetch of the next descriptor line, for which the tokens are taken; in a halted domain it is answered HALTED
(R128, R279, R287). -/
def State.dmaFetch (s : State) (n : Nat) : State :=
  let c := s.dch n
  let line := c.fetchAddr / 128
  if s.saf.safe == .halted && c.state == .run then s.dmaError n 4 0
  else if !(s.dmaMayFetch n) then s
  else s.withVotes (usesDma n) (fun s =>
    match s.dmaCheck (s.dmaAd n) (line * 128) 128 true false with
    | some r => r.2.setDch n { c with fetched := some (none, c.fetchAddr), tokens := c.tokens + c.lineTokens }
    | none =>
      match s.dmaSlot n line .dma with
      | none => s
      | some r =>
        let s := r.2.setDch n { c with fetchBusy := true, tokens := c.tokens + c.lineTokens }
        (s.register r.1 (Slot.blank .rdOnce (.dmaFetch n) line)).settle)

/-- Start a list at an address. -/
def State.dmaList (s : State) (n addr : Nat) : State :=
  let c := s.dch n
  (s.setDch n { c with
    state := .run, listAddr := addr, fetchAddr := addr, fetchBusy := false, fetched := none, descs := [], tokens := 0
    cur := none, prog := .init, descAddr := addr, resume := 0 }).dmaFetch n

/-! ### Completion (R286, R289, R291) -/

def State.dmaIrqMaybe (s : State) (n : Nat) : State := if s.bit (rDmaCtrl n) 1 then s.dmaIrq n else s

/-- Take the armed shadow list as the active list, or enter IDLE; with `enable` 0 the shadow stays armed (R291). -/
def State.dmaTake (s : State) (n : Nat) : State :=
  let c := s.dch n
  match (if s.bit (rDmaCtrl n) 0 then c.shadow else none) with
  | some (a, id) => (s.setDch n { c with shadow := none, taken := id }).dmaList n a
  | none => s.setDch n { c with state := .idle, descs := [], tokens := 0, fetched := none, fetchBusy := false }

/-- A channel that was told to stop, between two descriptors. -/
def State.dmaStopped (s : State) (n : Nat) : State :=
  (s.setDch n { s.dch n with state := .stopped }).dmaIrqMaybe n

/-- The current descriptor completes OK or POISON: hand-over strobe, stop, or the next descriptor. -/
def State.dmaGood (s : State) (n : Nat) (d : Desc) (poison : Bool) : State :=
  let c := s.dch n
  let stop := c.state == .stopping
  let next := if d.op = 0xf then d.src.toNat / 32 * 32 else d.addr + 32
  let c := { c with
    status := if poison then 1 else 0, reason := 0, lastTag := d.tag, doneCnt := c.doneCnt + 1
    tokens := c.tokens - 1, cur := none, prog := .init, resume := 0, descAddr := next }
  let c := if d.op = 0xf then { c with fetchAddr := next, descs := [], fetched := none, tokens := 0 } else c
  let s := s.setDch n c
  let s := if d.irq then s.dmaIrqMaybe n else s
  let s := if d.last then s.dmaTake n else s
  if stop && (s.dch n).state.active then s.dmaStopped n
  else if (s.dch n).state == .run then s.dmaFetch n else s

/-- The current descriptor completes with a status. -/
def State.dmaComplete (s : State) (n status reason : Nat) : State :=
  match (s.dch n).cur with
  | none => s
  | some d =>
    if status ≤ 1 then s.dmaGood n d (status == 1) else s.dmaError n (BitVec.ofNat 3 status) (BitVec.ofNat 4 reason)

/-- The slot of a channel's access. -/
def DmaAcc.slot (a : DmaAcc) (n : Nat) : Slot :=
  { Slot.blank a.kind (.dma n) (a.addr / 128) with
    addr := BitVec.ofNat 40 a.addr, size := a.size, data := a.data, mask := byteMask (a.addr % 128) a.size
    badData := a.bad }

/-- Issue one access of a channel; none when nothing can be issued now. -/
def State.dmaIssue (s : State) (n : Nat) : Option State :=
  let c := s.dch n
  if !(c.mayIssue n) || !(s.dmaRoom n) then none
  else match c.nextAcc with
    | none => none
    | some a =>
      match s.dmaCheck c.ad.toNat a.addr a.size a.masks.1 a.masks.2 with
      | some r => some (r.2.setDch n { c with prog := { c.prog with badReason := r.1 } })
      | none =>
        (s.dmaSlot n (a.addr / 128) a.kind.dmaPool).map (fun r =>
          let s := r.2.setDch n { c with prog := { a.prog with poison := a.prog.poison || a.bad } }
          (s.register r.1 (a.slot n)).settle)

/-- Issue as much as the channel may. -/
def dmaIssueAll (n : Nat) : Nat → State → State
  | 0, s => s
  | k + 1, s =>
    match s.dmaIssue n with
    | some s => dmaIssueAll n k s
    | none => s

/-- The read-back of the last address, which is ordered after every write (R285). -/
def State.dmaBack (s : State) (n : Nat) (d : Desc) : State :=
  let c := s.dch n
  if !(s.dmaMayBack n d) then s
  else match s.dmaSlot n d.backLine .dma with
    | none => s
    | some r =>
      let s := r.2.setDch n { c with prog := { c.prog with readBack := 1 } }
      (s.register r.1 (Slot.blank .rdOnce (.dmaBack n) d.backLine)).settle

/-- Go on with a COPY, a FILL or a range operation. -/
def State.dmaRun (s : State) (n : Nat) (d : Desc) : State := (dmaIssueAll n 16 s).dmaBack n d

/-! ### Descriptors begin (R281, R283, R286, R287) -/

/-- Ranges of a COPY overlap. -/
def Desc.overlaps (d : Desc) : Bool :=
  decide (d.src.toNat < d.dst.toNat + d.length) && decide (d.dst.toNat < d.src.toNat + d.length)

/-- Granules of a PAVE's range. -/
def Desc.granules (d : Desc) : List Nat :=
  if d.length = 0 then []
  else
    let a := d.src.toNat / 65536
    (List.range ((d.src.toNat + d.length - 1) / 65536 - a + 1)).map (a + ·)

/-- A granule of a range lies in an integrity window and is not paved. -/
def State.toPave (s : State) (g : Nat) : Bool := s.unpaved (g * 512)

def State.paveAsk (s : State) (g : Nat) : State :=
  if !(s.toPave g) || s.cry.paving.contains g || s.cry.paveWait.contains g then s
  else if s.cry.paving.length < 4 then { s with cry := { s.cry with paving := s.cry.paving ++ [g] } }
  else { s with cry := { s.cry with paveWait := s.cry.paveWait ++ [g] } }

/-- The granules of a PAVE in turn, up to the first that is refused. -/
def paveRange (n ad : Nat) (d : Desc) : List Nat → State → State
  | [], s => s
  | g :: r, s =>
    let a := max d.src.toNat (g * 65536)
    match s.dmaCheck ad a (min (d.src.toNat + d.length) ((g + 1) * 65536) - a) false true with
    | some x => x.2.setDch n { s.dch n with prog := { (s.dch n).prog with badReason := x.1 } }
    | none => paveRange n ad d r (s.paveAsk g)

/-- Why a PARK is refused with status REFUSED, 0: it is not (R219, R286). -/
def State.parkReason (s : State) (d : Desc) : Nat :=
  let k := d.param.toNat % 1024
  let region := d.src.toNat / 2 ^ 21
  if d.src.toNat % 2 ^ 21 ≠ 0 then 6
  else if s.prk.size * 128 ≤ k ∨ (s.pslot k).pstate ≠ .free then 7
  else if !(s.regionSlots region).isEmpty then 8
  else if s.prk.resize.isSome then 9
  else if s.parkUnpaved region then 10
  else 0

def State.unparkReason (s : State) (d : Desc) : Nat :=
  let k := d.param.toNat % 1024
  if s.prk.size * 128 ≤ k ∨ (s.pslot k).pstate ≠ .parked then 7 else if s.prk.resize.isSome then 9 else 0

/-- A PARK or UNPARK that is not refused begins, if its domain may write the region. -/
def State.parkGo (s : State) (n region : Nat) (begin_ : State → State) : State :=
  match s.dmaCheck (s.dch n).ad.toNat (regionBase region) (2 ^ 21) false true with
  | some r => r.2.dmaComplete n 2 r.1
  | none => begin_ s

/-- The class accepts the operation (R277, R286). -/
def Desc.accepted (d : Desc) (n : Nat) : Bool :=
  decide (d.op.toNat ≤ 8 ∨ d.op = 0xf) && (persistent n || !(decide (3 ≤ d.op.toNat ∧ d.op.toNat ≤ 5)))

/-- The first fc of the current descriptor. -/
def State.dmaBegin (s : State) (n : Nat) (d : Desc) : State :=
  let k := d.param.toNat % 1024
  if !(d.accepted n) then s.dmaComplete n 3 1
  else if d.op = 0 ∨ d.op = 0xf then s.dmaComplete n 0 0
  else if d.op = 4 then
    (if s.parkReason d ≠ 0 then s.dmaComplete n 3 (s.parkReason d)
     else s.parkGo n (d.src.toNat / 2 ^ 21) (fun s => s.parkBegin (d.src.toNat / 2 ^ 21) k))
  else if d.op = 5 then
    (if s.unparkReason d ≠ 0 then s.dmaComplete n 3 (s.unparkReason d)
     else s.parkGo n (s.pslot k).region (fun s => s.unparkBegin k))
  else if d.length = 0 then s.dmaComplete n 0 0
  else if d.op = 3 then paveRange n (s.dch n).ad.toNat d d.granules s
  else if d.op = 1 && d.overlaps then s.dmaComplete n 3 6
  else s.dmaRun n d

/-- The oldest fetched descriptor becomes the current one; a change of `ad` applies from here. -/
def State.dmaTakeDesc (s : State) (n : Nat) (d : Desc) : State :=
  let c := s.dch n
  s.setDch n { c with
    cur := some d, descs := c.descs.tail, prog := .init, descAddr := d.addr, ad := BitVec.ofNat 4 (s.dmaAd n) }

/-- The channel has no descriptor and may start one. -/
def DmaCh.ready (c : DmaCh) : Bool := c.state == .run && c.cur.isNone

/-- A reserved `op` is refused as soon as its descriptor is next (R286). -/
def State.dmaReserved (s : State) (n : Nat) : State :=
  let c := s.dch n
  match c.descs with
  | d :: _ =>
    if c.ready && decide (9 ≤ d.op.toNat ∧ d.op.toNat ≤ 14) then (s.dmaTakeDesc n d).dmaComplete n 3 1 else s
  | [] => s

/-- A failed fetch ends the list once nothing is in flight (R279, R287). -/
def State.dmaFetchFail (s : State) (n : Nat) : State :=
  let c := s.dch n
  match c.fetched with
  | some (none, _) =>
    if c.prog.inFlight = 0 ∧ c.prog.readBack ≠ 1 then s.dmaError n 2 11 else s
  | _ => s

/-- The event of one operation: its descriptor starts, or goes on. -/
def State.dmaOp (s : State) (n : Nat) (op : BitVec 4) : State :=
  s.withVotes (usesDma n) (fun s =>
    let s := s.dmaReserved n
    let c := s.dch n
    match c.cur, c.descs with
    | some d, _ => if d.op = op && (op = 1 || op = 2 || decide (6 ≤ op.toNat)) then s.dmaRun n d else s
    | none, d :: _ => if d.op = op && c.ready && s.dmaOpen then (s.dmaTakeDesc n d).dmaBegin n d else s
    | none, [] => s)

/-- A descriptor line has arrived (R279): its descriptors join the list up to a `last` or a LINK, and the tokens of the
others are freed. -/
def State.dmaArrive (s : State) (n : Nat) : State :=
  let c := s.dch n
  match c.fetched with
  | some (some line, addr) =>
    let i := addr % 128 / 32
    let all := (List.range (4 - i)).map (fun k => descOf line (i + k) (addr / 128 * 128 + 32 * (i + k)))
    let upTo := (all.takeWhile (fun d => !d.ends)).length + 1
    let keep := all.take upTo
    s.setDch n { c with
      fetched := none, descs := c.descs ++ keep, tokens := c.tokens - (all.length - keep.length)
      fetchAddr := (addr / 128 + 1) * 128 }
  | _ => s

/-- DMA_DESCRIPTOR_FETCH (R279): a fetch that has returned is taken in, and the next one starts. -/
def execDmaDescriptorFetch (ch : Fin 64) (s : State) : Res :=
  let n := ch.val
  State.done ((((s.dmaArrive n).dmaFetchFail n).dmaReserved n).dmaFetch n)

/-- NOP (R281). -/
def execNop (ch : Fin 64) (s : State) : Res := (s.dmaOp ch.val 0x0).done

/-- LINK (R278, R281). -/
def execLink (ch : Fin 64) (s : State) : Res := (s.dmaOp ch.val 0xf).done

/-- COPY (R281, R283). -/
def execCopy (ch : Fin 64) (s : State) : Res := (s.dmaOp ch.val 0x1).done

/-- FILL (R281). -/
def execFill (ch : Fin 64) (s : State) : Res := (s.dmaOp ch.val 0x2).done

/-- PAVE (R273, R281). -/
def execPave (ch : Fin 64) (s : State) : Res := (s.dmaOp ch.val 0x3).done

/-- PARK (R219, R281). -/
def execPark (ch : Fin 64) (s : State) : Res := (s.dmaOp ch.val 0x4).done

/-- UNPARK (R221, R281). -/
def execUnpark (ch : Fin 64) (s : State) : Res := (s.dmaOp ch.val 0x5).done

/-- CLEAN (R174, R281). -/
def execClean (ch : Fin 64) (s : State) : Res := (s.dmaOp ch.val 0x6).done

/-- INVAL (R174, R176, R281). -/
def execInval (ch : Fin 64) (s : State) : Res := (s.dmaOp ch.val 0x7).done

/-- CLEAN_INVAL (R174, R281). -/
def execCleanInval (ch : Fin 64) (s : State) : Res := (s.dmaOp ch.val 0x8).done

/-! ### Descriptors end (R281, R285 to R287) -/

/-- A refused access or a halt ends the descriptor once nothing of it is in flight. -/
def State.dmaBroken (s : State) (n : Nat) : Option State :=
  let g := (s.dch n).prog
  if g.inFlight ≠ 0 ∨ g.readBack = 1 then none
  else if g.halted ∨ g.readBack = 5 then some (s.dmaComplete n 4 0)
  else if g.badReason ≠ 0 then some (s.dmaComplete n 2 g.badReason)
  else none

/-- The read-back of a COPY or FILL has been answered, and so have the lines whose poison the status tells (log entry 41). -/
def State.dmaReadback (s : State) (n : Nat) : State :=
  let c := s.dch n
  match c.cur with
  | none => s
  | some d =>
    if !(c.state.active) || !(d.op == 1 || d.op == 2) || c.prog.inFlight != 0 then s
    else match s.dmaBroken n with
      | some s => s
      | none =>
        let g := c.prog
        if g.readBack = 4 then s.dmaComplete n 2 5
        else if g.readBack = 2 ∨ g.readBack = 3 then s.dmaComplete n (if g.poison ∨ g.readBack = 3 then 1 else 0) 0
        else s

/-- DMA_READBACK_DONE (R285, R286). -/
def execDmaReadbackDone (ch : Fin 64) (s : State) : Res := (s.dmaReadback ch.val).done

/-- A PAVE, PARK, UNPARK or range descriptor has nothing left to do. -/
def State.dmaRangeReady (s : State) (d : Desc) (g : Prog) : Bool :=
  let k := d.param.toNat % 1024
  if d.op = 3 then d.granules.all (fun x => !(s.toPave x))
  else if d.op = 4 then (s.pslot k).pstate == .parked
  else if d.op = 5 then (s.pslot k).pstate == .free || (s.pslot k).pstate == .closed
  else decide (rangeLines d.src.toNat d.length ≤ g.nextWrite) && g.inFlight == 0

/-- The last line, granule or move of a descriptor is done. -/
def State.dmaRange (s : State) (n : Nat) : State :=
  let c := s.dch n
  match c.cur with
  | none => s
  | some d =>
    if !(c.state.active) || d.op == 1 || d.op == 2 then s
    else match s.dmaBroken n with
      | some s => s
      | none => if s.dmaRangeReady d c.prog then s.dmaComplete n (if c.prog.poison then 1 else 0) 0 else s

/-- DMA_RANGE_DONE (R281, R286). -/
def execDmaRangeDone (ch : Fin 64) (s : State) : Res := (s.dmaRange ch.val).done

/-! ### Stopping (R288, R289) -/

/-- The lowest byte offset of the descriptor whose write, or line, has not completed. -/
def Prog.resumeAt (g : Prog) (d : Desc) : Nat :=
  let base := d.wrBase
  let n := rangeLines base d.length
  let j := ((List.range n).find? (fun j => !(g.doneLines.contains j))).getD n
  if j = 0 then 0 else min d.length (j * 128 - base % 128)

/-- A stopping channel has nothing in flight. A bulk channel enters STOPPED with status STOPPED (R288); a descriptor that
stops is counted and named as one that completes is (R286). -/
def State.dmaStop (s : State) (n : Nat) : State :=
  let c := s.dch n
  if c.state != .stopping || c.fetchBusy then s
  else match c.cur with
    | none => (if persistent n then s else s.setDch n { c with status := 5, reason := 0 }).dmaStopped n
    | some d =>
      if persistent n || c.prog.inFlight != 0 || c.prog.readBack == 1 then s
      else match s.dmaBroken n with
        | some s => s
        | none =>
          (s.setDch n { c with
            status := 5, reason := 0, lastTag := d.tag, doneCnt := c.doneCnt + 1
            resume := c.prog.resumeAt d }).dmaStopped n

/-- DMA_STOP_COMPLETE (R288, R289). -/
def execDmaStopComplete (ch : Fin 64) (s : State) : Res := (s.dmaStop ch.val).done

/-- The progress from which a stopped descriptor resumes. -/
def Prog.from (d : Desc) (off : Nat) : Prog :=
  let base := d.wrBase
  let j := if d.length ≤ off then rangeLines base d.length else (base + off) / 128 - base / 128
  let a := (rangePart base d.length j).1 - base
  { Prog.init with
    nextWrite := j, doneLines := List.range j
    nextRead := if d.op = 1 then (d.src.toNat + a) / 128 - d.src.toNat / 128 else 0 }

/-- A stopped channel goes on (R288, R289); in a halted domain it ends with HALTED (R287). -/
def State.dmaResume (s : State) (n : Nat) : State :=
  let c := s.dch n
  if s.saf.safe == .halted then s.dmaError n 4 0
  else match c.cur with
  | some d =>
    let poison := c.prog.poison
    s.setDch n { c with state := .run, prog := { Prog.from d c.resume with poison := poison } }
  | none => (s.setDch n { c with state := .run }).dmaFetch n

/-! ### Registers (R290 to R292, R294) -/

/-- The list address in DMA_CH_LIST. -/
def State.dmaListAddr (s : State) (n : Nat) : Nat := (s.reg (rDmaListLo n)).toNat + s.fld (rDmaListHi n) 0 8 * 2 ^ 32

/-- `enable` goes from 0 to 1. -/
def State.dmaStart (s : State) (n : Nat) : State :=
  let c := s.dch n
  match c.state with
  | .idle => if c.shadow.isSome then s.dmaTake n else s.dmaList n (s.dmaListAddr n)
  | .error => s.dmaList n (s.dmaListAddr n)
  | .stopped => s.dmaResume n
  | _ => s

/-- A write of DMA_CH_CTRL (R287 to R290). In shoulder mode a 1 for `enable` is ignored: the bit keeps its value. -/
def State.dmaCtrlWrite (s : State) (n : Nat) (v : Word) : State :=
  let o := rDmaCtrl n
  let was := s.bit o 0
  if s.mgt.shoulder && v.getLsbD 0 then
    ((s.writeReg o (if was then v else v &&& ~~~ 1)).err rDmaErr 9 2 .info (some n) 0)
  else
    let s := s.writeReg o v
    let c := s.dch n
    if v.getLsbD 0 then (if was && c.state != .stopped then s else s.dmaStart n)
    else if c.state == .run then s.setDch n { c with state := .stopping } else s

/-- DMA_ENABLE (R287 to R291). -/
def execDmaEnable (ch : Fin 64) (v : Word) (s : State) : Res := (s.ctl (·.dmaCtrlWrite ch.val v)).done

/-- DMA_DISABLE (R288, R289). -/
def execDmaDisable (ch : Fin 64) (v : Word) (s : State) : Res := (s.ctl (·.dmaCtrlWrite ch.val v)).done

/-- A write of DMA_CH_SHADOW_HI (R291, R292). -/
def State.dmaShadowWrite (s : State) (n : Nat) (v : Word) : State :=
  let s := s.writeReg (rDmaShadowHi n) v
  if !(v.getLsbD 31) then s
  else
    let addr := (s.reg (rDmaShadowLo n)).toNat + field v 0 8 * 2 ^ 32
    let c := s.dch n
    let s := s.setDch n { c with shadow := some (addr, BitVec.ofNat 4 (field v 8 4)) }
    if c.state == .idle && s.bit (rDmaCtrl n) 0 then s.dmaTake n else s

/-- DMA_SHADOW_ARM (R291, R292). -/
def execDmaShadowArm (ch : Fin 64) (v : Word) (s : State) : Res := (s.ctl (·.dmaShadowWrite ch.val v)).done

/-- A write of DMA_CH_LIST: ignored while the channel runs (R294). -/
def State.dmaListWrite (s : State) (n o : Nat) (v : Word) : State :=
  if (s.dch n).state.active then s else s.writeReg o v

end Sys2Proof.Machine
end

