-- ==== Sys2Proof/Machine/Drain.lean ====
section
/-! DEFINITION. What the device writes before it stops: the flush of the waypoint (R169, R355), the unlend sweep (R181), the
seal record (R228), the PASR mask (R227), the power-loss drain (R231), and step 5 of the shoulder drain (R339, R340). -/
namespace Sys2Proof.Machine

/-- Open transactions have completed and every lay-by entry has drained (R339, R355, R365). -/
def State.quiet (s : State) : Bool := s.laybyHeld == 0 && s.slotList.isEmpty

/-- A line leaves its frame while no traffic flows: by the waypoint copy where there is one (R162), newer data to DRAM, a
poisoned line to the poison list. -/
def State.victimOut (s : State) (line : Nat) (st : HState) (d : Line) : State :=
  match s.wayOf line with
  | some w =>
    let h := (s.way w).hstate
    if (s.way w).dirty || h == .hc || h == .hlc || h == .hi then s else (s.wayToDram w line d).getD s
  | none => if st == .hp then s.poisonIn line else if st == .hd || st == .hld then s.dramWrite line d else s

/-- The line that a frame holds leaves it: newer data goes to DRAM, a poisoned line to the poison list (R165). -/
def State.frameOut (s : State) (f line : Nat) : State :=
  let r := s.quietRead f
  match r.2.holds f r.1 with
  | some (x, st, _) => if x = line then r.2 else r.2.victimOut x st (r.2.frameLine r.1 x)
  | none => r.2

/-- A dirty way's data is lost: the line is HP in its frame, or in the poison list (R178). -/
def State.wayBad (s : State) (line : Nat) : State :=
  if s.bypassed (s.placeOf line).frame then s.poisonIn line else s.writeLineFrame line .hp 0

/-- Write back one dirty way to its frame (R169); a bypassed frame's line goes to DRAM. -/
def State.wayHome (s : State) (e : Nat × Way) : State :=
  let line := wayLine e.1 e.2
  let f := (s.placeOf line).frame
  if s.lostLine line then s
  else if e.2.dataBad then ((s.err rWpcErr 4 1 .p none (lineAddr line)).frameOut f line).wayBad line
  else if s.bypassed f then
    (if e.2.hstate == .hp then s.poisonIn line else s.dramWrite line e.2.data)
  else (s.frameOut f line).writeLineFrame line e.2.hstate e.2.data

/-- Write back every dirty way, then invalidate every way (R355 step 4). -/
def State.flushWaypoint (s : State) : State :=
  let s := forEach (fun e s => s.wayHome e) s.dirtyWays s
  forEach (fun (e : Nat × Way) s => s.dropWay e.1) s.wp.ways s

/-- The unlend sweep (R181). -/
def State.unlendSweep (s : State) : State :=
  forEach (fun (e : Nat × FEnt) s => s.unlendRegion e.2.region) s.filterValid s

/-- The slots enabled, as `ks_mask` (R228). -/
def State.ksMask (s : State) : BitVec 16 := BitVec.ofNat 16 (s.fld rCryCtrl 0 16)

/-- Write the seal record (R228). -/
def State.writeSeal (s : State) (kind : SealKind) : State :=
  { s with prk := { s.prk with
      sealRec := some ⟨kind, s.sto.epoch, s.prk.size, s.memCode, s.kcv, s.ksMask, s.prk.vacant, true⟩ } }

/-- Wear counters are persisted and marked clean (R205). -/
def State.persistClean (s : State) : State :=
  let s := s.persistWear
  { s with sto := { s.sto with wearClean := true } }

/-- Every channel abandons its work without completion; DMA_CH_DONE stays (R290, R364). -/
def State.dmaAbandon (s : State) : State :=
  { s with dma := s.dma.map (fun e => (e.1, { DmaCh.init with doneCnt := e.2.doneCnt })) }

/-- Every running channel is told to stop (R290). -/
def State.dmaStopAll (s : State) : State :=
  forEach (fun n s =>
    let c := s.dch n
    if c.state == .run then (s.setDch n { c with state := .stopping }).dmaStop n else s) (List.range 64) s

/-- No channel is in RUN or STOPPING. -/
def State.dmaIdle (s : State) : Bool := s.dma.all (fun e => !(e.2.state.active))

/-! ### PASR (R227, R254) -/

/-- Regions whose DRAM contents are not needed: in a PARKED slot, or vacant. -/
def State.spareRegions (s : State) : List Nat :=
  (s.prk.slots.filterMap (fun e => if e.2.pstate == .parked then some e.2.region else none) ++ s.prk.vacant).eraseDups

/-- The segments to switch off. -/
def State.pasrMask (s : State) : BitVec 8 :=
  let n := s.memBytes / 2 ^ 24
  let rs := s.spareRegions
  (List.range 8).foldl (fun m k =>
    if (rs.filter (fun r => r / n == k)).length == n && s.prk.spill.all (fun l => s.eighthOf l != k) then
      m ||| BitVec.ofNat 8 (2 ^ k) else m) 0

/-- DRAM contents of some segments are lost: their lines are as never written. -/
def State.loseDram (s : State) (segs : BitVec 8) : State :=
  let hit := fun k => decide (k < 8) && segs.getLsbD k
  { s with mem := { s.mem with
      array := s.mem.array.filter (fun e => !(hit (s.eighthOf e.1)))
      losses := (List.range 8).foldl (fun t k =>
        if hit k then tset zeroDef t k (tget zeroDef t k + 1) else t) s.mem.losses } }

/-- R254 on one channel: all-bank refresh, mode register 23, then self-refresh or deep-sleep. -/
def State.chanSleep (s : State) (c : Nat) : State :=
  let s := forEach (fun b s => s.emit (.refresh c b)) (List.range (if s.mem.ranks2 then 32 else 16)) (s.prechargeAll c)
  let s := s.emit (.modeReg23 c s.prk.segOff)
  s.setChan c { s.chan c with
    pstate := if s.bit rMemCtrl 6 then .deepSleep else .pasr, owed := [], ahead := [], rfmOwed := [] }

/-- Step 7 of R355. -/
def State.memSleep (s : State) : State :=
  let m := s.pasrMask
  let s := { s with prk := { s.prk with segOff := m } }
  (forEach (fun c s => s.chanSleep c) (List.range 16) s).loseDram m

/-- Channels enter self-refresh before a warm reset (R365). -/
def State.chanKeep (s : State) : State :=
  forEach (fun c s =>
    let s := s.prechargeAll c
    s.setChan c { s.chan c with pstate := .selfRefresh, reads := [], writes := [], offers := [], draining := false }) (List.range 16) s

/-! ### Orderly stops (R324, R355, R365) -/

/-- Admission stops for Standby entry or shutdown: requests not yet dispatched are answered HALTED, but for the reads of
the reply. -/
def State.stopAdmission (s : State) (b : Boot) : State :=
  let s := { s with power := { s.power with boot := b } }
  (s.haltQueues (fun e => !(e.op == opRdOnce && isReplyRead e.addr))).dmaStopAll

/-- No park slot is on its way (R217). -/
def State.parkSettled (s : State) : Bool :=
  s.prk.slots.all (fun e => e.2.pstate != .parking && e.2.pstate != .unparking && e.2.pstate != .moving)

/-- Everything that R324 and R355 wait for has come about. -/
def State.stopReady (s : State) : Bool :=
  s.quiet && s.dmaIdle && s.parkSettled && s.prk.resize.isNone && s.cry.paving.isEmpty

/-- Steps 3 to 5 of R324. -/
def State.shutdownEnd (s : State) : State :=
  ((s.flushWaypoint.unlendSweep).persistClean).writeSeal .shutdown

/-- A register in retention: the voted fields it holds (R355 step 6). -/
def retained (e : Nat × Reg3) : Nat × Reg3 :=
  let y := layout e.1
  let m := y.votedMask
  let f := fun (w : Word) => (w &&& m) ||| (y.reset &&& ~~~ m)
  (e.1, ⟨f e.2.a, f e.2.b, f e.2.c⟩)

/-- Close every Tollgate session and forget challenges (R314). -/
def State.closeSessions (s : State) : State :=
  { s with mgt := { s.mgt with
      host := { s.mgt.host with session := none, challenge := none }
      i3cp := { s.mgt.i3cp with session := none, challenge := none } } }

/-- Steps 4 to 8 of R355. -/
def State.standbyEnd (s : State) : State :=
  let s := (s.flushWaypoint.unlendSweep).tagDrain
  let s := { s with prk := { s.prk with poisonSaved := s.mem.poison, pavedSaved := s.cry.paved } }
  let s := s.persistClean
  let s := { s with prk := { s.prk with
    saved := (s.csr.filter (fun (e : Nat × Reg3) => (layout e.1).votedMask != 0)).map retained } }
  let s := s.memSleep.writeSeal .standby
  ({ s with prk := { s.prk with retention := true } }).closeSessions

/-- Steps 2 to 5 of R365, and the reset's own part of R364 for requests in the device. -/
def State.warmDrained (s : State) : State :=
  (((s.drainDirty.haltFull).tagDrain).unlendSweep).dmaAbandon.chanKeep

/-! ### The power-loss drain (R231 to R233) -/

/-- The verified image of a park frame under the bits that a read shows; none when it fails (R192). -/
def State.parkImage (s : State) (p : Place) (line : Nat) (e : FrameErr) : Option (HState × Line) :=
  match readImage (s.image p.frame) e with
  | none => none
  | some (img, _) =>
    match s.judge p line img with
    | .hit st => some (st, s.frameLine img line)
    | .poison => some (.hp, 0)
    | _ => none

/-- The bits that a read of a frame shows inverted, as the event brings them. -/
def errOf (errs : List (Nat × FrameErr)) (f : Nat) : FrameErr := ((errs.find? (fun e => e.1 == f)).map Prod.snd).getD {}

/-- The state that the drain records: HLC and HLD as HD, HP as HP (R231 step 4). -/
def drainState (st : HState) : HState := if st == .hp then .hp else .hd

/-- A park frame that the drain cannot use: it is written HP, and one class P error is logged (R192). -/
def State.drainBad (s : State) (line : Nat) : State :=
  (s.logEvent 5 3 .p none (lineAddr line) (stoDetail (s.placeOf line).frame 1)).writeLineFrame line .hp 0

/-- One lay-by entry over a line: an entry that its codes give up leaves the line in HP (R86), a full line ends HP, and a
partial write to a line in HP changes nothing (R116). -/
def drainEnt (c : HState × Line) (e : LbEnt) : HState × Line :=
  if e.ecc == .uncorr then (.hp, 0)
  else if e.mask == BitVec.allOnes 128 then (.hd, e.data)
  else if c.1 == .hp then c
  else (.hd, mergeLine c.2 e.data e.mask)

/-- Apply the lay-by entries of one parked line over its image and write it (R231 steps 3 and 4). -/
def State.drainParked (s : State) (errs : List (Nat × FrameErr)) (es : List (Nat × LbEnt)) (line : Nat) : State :=
  let mine := es.filter (fun e => e.2.line == line)
  let s := forEach (fun (e : Nat × LbEnt) s =>
    if e.2.ecc == .uncorr then s.logEvent 2 0x81 .p (some e.1) (lineAddr line) else s) mine s
  let put := fun (s : State) (st : HState) (d : Line) =>
    let c := (mine.map Prod.snd).foldl drainEnt (drainState st, d)
    s.writeLineFrame line c.1 c.2
  match s.wayOf line with
  | some w => put s (s.way w).hstate (s.way w).data
  | none =>
    let p := s.placeOf line
    match s.parkImage p line (errOf errs p.frame) with
    | some c => put s c.1 c.2
    | none => s.drainBad line

/-- A line served from a PARKED slot. -/
def State.parkedLine (s : State) (line : Nat) : Bool :=
  match s.served line with
  | .park _ => (s.regionSlots (parkRegion line)).any (fun e => e.2.pstate == .parked)
  | _ => false

/-- Lay-by entries in the order of the drain, with their ports: ports ascending, then FIFO (R231). A conditional entry
counts for nothing: its WR_COND is not complete. -/
def State.drainEnts (s : State) : List (Nat × LbEnt) :=
  (s.ports.map (fun e =>
    (e.2.layby.filter (fun x => x.dest == .mem && x.op != opWrCond)).map (fun x => (e.1, x)))).flatten

/-- Steps 3 and 4 of R231. -/
def State.powerWrite (s : State) (errs : List (Nat × FrameErr)) : State :=
  let es := s.drainEnts
  let lines := ((s.dirtyWays.map (fun e => wayLine e.1 e.2)) ++ es.map (·.2.line)).eraseDups.filter s.parkedLine
  forEach (fun line s => s.drainParked errs es line) lines s

/-! ### Step 5 of the shoulder drain (R339, R340) -/

/-- The line of one cache frame leaves the store: data newer than DRAM is written there, and HP enters the poison list. A
frame that fails its check is an unrequested read (R192). -/
def State.frameDown (s : State) (f : Nat) : State :=
  let r := s.quietRead f
  match r.2.holds f r.1 with
  | some (line, st, _) => r.2.victimOut line st (r.2.frameLine r.1 line)
  | none => r.2

/-- The line of one park frame leaves the store. -/
def State.parkDown (s : State) (line : Nat) : State :=
  match s.served line with
  | .park _ =>
    let p := s.placeOf line
    if s.bypassed p.frame then s
    else
      let r := s.quietRead p.frame
      match r.2.judge p line r.1 with
      | .hit _ => r.2.dramWrite line (r.2.frameLine r.1 line)
      | _ => r.2.poisonIn line
  | _ => s

/-- Write a PARKED slot's lines to DRAM; the slot becomes FREE, and its lines leave the spill list. -/
def State.slotDown (s : State) (k : Nat) : State :=
  let region := (s.pslot k).region
  let s := forEach (fun j s => s.parkDown (region * 16384 + j)) (List.range 16384) s
  let s := s.setPslot k { s.pslot k with pstate := s.freeState k false, moved := [], next := 0, out := [] }
  { s with prk := { s.prk with spill := s.prk.spill.filter (fun l => parkRegion l != region) } }

/-- Logical frame of a slot under lane shift (R203). -/
def laneFrame (a : Lane) (slot : Nat) : Nat := ((if slot ≤ a.gap then slot else slot - 1) + 8192 - a.start) % 8192

/-- Logical frames that may lie at a frame key. -/
def State.framesAt (s : State) (key : Nat) : List Nat :=
  let n := key / 2 ^ 24
  let d := s.die n
  let at_ : Nat × Nat :=
    if key / 2 ^ 14 % 1024 = 528 then
      ((d.detours.findSome? (fun e => e.2.bind (fun w =>
        if w.spare == key % 2 ^ 14 then some (w.pseg, w.slot) else none))).getD (1023, 0))
    else (key / 2 ^ 14 % 1024, key % 2 ^ 14)
  let lanes := fun g => tget laneDef d.lanes g :: (d.retire.map (·.lane)).toList
  ((List.range 512).map (fun g => (lanes g).map (fun a => (g * 8192 + laneFrame a at_.2) * 8 + n))).flatten

/-- Logical frames below `n` that hold something written. -/
def State.framesUsed (s : State) (n : Nat) : List Nat :=
  ((s.sto.frames.map (fun e =>
    (s.framesAt e.1).filter (fun f => decide (f < n) && s.locate f == some e.1))).flatten).eraseDups

/-- Cache frames, then parked slots, then the seal record is erased. -/
def State.storeDown (s : State) (frames parked : Bool) : State :=
  let s := if frames then
      forEach (fun f s => s.frameDown f) (s.framesUsed (cacheFrames s.prk.size)) s else s
  let s := if parked then
      forEach (fun (e : Nat × PSlot) s => if e.2.pstate == .parked then s.slotDown e.1 else s) s.prk.slots s else s
  { s with prk := { s.prk with sealRec := none } }

end Sys2Proof.Machine
end

