-- ==== Sys2Proof/Machine/Boot.lean ====
section
/-! DEFINITION. Resets and the boot: what each reset keeps (R364, R214), the choice of firmware (R303, R305), the end of
training (R237, R249), the key wait (R261), the seal and the epoch decision (R183, R209, R229), the wear charge (R205),
shoulder mode at boot (R340), and what a tick starts with (R31, R173, R211). -/
namespace Sys2Proof.Machine

/-! ### What a tick starts with -/

/-- Lane shift reads and writes, resurfacing reads and writes, lowered to stay within R20: resurfacing first (R211). -/
def lowered (cap : Nat) (ls rs : Word) : Nat × Nat × Nat × Nat :=
  let lr := field ls 0 17
  let lw := field ls 17 15
  (min lr (125000 - cap), min lw 46875, min (field rs 0 17) (125000 - cap - lr), min (field rs 17 15) (46875 - lw))

/-- Tokens, budgets and the power allowance of the tick, in uJ (R31, R173, R211, R361); what the last tick left unused is
discarded. A boot ends with a full grant (log entry 20). -/
def State.replenish (s : State) : State :=
  let n := s.power.level
  let cap := min s.wp.grantCap 125000
  let b := lowered cap s.sto.lsStaged s.sto.rsStaged
  let budget := fun (d : Die) => { d with lsReads := b.1, lsWrites := b.2.1, rsReads := b.2.2.1, rsWrites := b.2.2.2 }
  let dies := (List.range 8).foldl (fun t d => tset dieDef t d (budget (tget dieDef t d))) s.sto.dies
  { s with
    power := { s.power with allowance := s.capEff }
    wp := { s.wp with
      portTokens := s.wp.grantPort * (8 - n) / 8
      poolTokens := s.wp.grantPool * (8 - n) / 8
      diePf := (List.range 8).foldl (fun t d => tset zeroDef t d cap) [] }
    ports := s.ports.map (fun e => (e.1, { e.2 with pfUsed := 0 }))
    sto := { s.sto with dies := dies } }

/-! ### What resets keep (R364) -/

/-- Pins and straps as they stand; nothing of the running device. -/
def Power.pins (p : Power) : Power :=
  { Power.init with
    porstN := p.porstN, warmN := p.warmN, vmainOk := p.vmainOk, vbakOk := p.vbakOk, onVbak := p.onVbak, vaonOk := p.vaonOk
    refclk := p.refclk, straps := p.straps, alertN := p.alertN }

/-- A link stop after reset (R76): the presence pin of a detachable position stays as the board holds it. -/
def Link.afterReset (l : Nat) (k : Link) : Link :=
  { Link.init with prsntHigh := k.prsntHigh, present := k.present && decide (14 ≤ l) }

/-- A die as its own cells and the system segment hold it (R203, R205, R206): budgets and the unpersisted pass position are
gone. -/
def Die.stored (d : Die) : Die :=
  { d with passPos := d.passSaved, lsReads := 0, lsWrites := 0, rsReads := 0, rsWrites := 0, asleep := false }

/-- Class C and information entries that were not yet written to the system segment are lost at an unclean stop (R328). -/
def Saf.stopped (f : Saf) (clean : Bool) : Saf :=
  { Saf.init with log := if clean then f.log else f.log.filter (·.saved), lost := f.lost }

/-- The user trim record with every accepted trim (R301). -/
def Mgt.trimmed (m : Mgt) : Tbl Int := m.trimNext.foldl (fun t e => tset intDef t e.1 e.2) m.trim

/-- The device without its core supplies: what the store, OTP and the system segment hold, and the always-on domain. -/
def State.unpowered (s : State) : State :=
  { State.reset with
    pending := s.pending, free := s.free, out := s.out, arrival := s.arrival, order := s.order
    power := s.power.pins
    links := s.links.map (fun e => (e.1, e.2.afterReset e.1))
    sto := { Store.init with
      frames := s.sto.frames, dies := s.sto.dies.map (fun e => (e.1, e.2.stored)), epochSaved := s.sto.epochSaved
      clearSaved := s.sto.clearSaved, wearClean := s.sto.wearClean }
    prk := { Park.init with
      slots := s.prk.slots, size := s.prk.sizeSaved, sizeSaved := s.prk.sizeSaved, spill := s.prk.spill
      sealRec := s.prk.sealRec, retention := s.prk.retention, saved := s.prk.saved, poisonSaved := s.prk.poisonSaved
      pavedSaved := s.prk.pavedSaved, segOff := s.prk.segOff, drainShort := s.prk.drainShort }
    mem := { Mem.init with
      saved := s.mem.saved, array := s.mem.array, losses := s.mem.losses
      chans := (List.range 16).foldl (fun t c => tset chanDef t c { Chan.init with pstate := .off }) [] }
    cry := { Crypt.init with keys := s.cry.keys }
    mgt := { Mgt.init with
      trim := s.mgt.trimmed, trimCrcOk := s.mgt.trimCrcOk, slotA := s.mgt.slotA, slotB := s.mgt.slotB, prefer := s.mgt.prefer
      trial := s.mgt.trial, trialBoot := s.mgt.trialBoot, opKey := s.mgt.opKey, ownKey := s.mgt.ownKey, i3c := s.mgt.i3c }
    saf := s.saf.stopped s.sto.wearClean }

/-- What PORST_N low leaves (R228, R261, R364): the keys and the retention flag are cleared, DRAM is not relied on. -/
def State.cold (s : State) : State :=
  let s := (s.loseDram 0xff).unpowered
  { s with
    prk := { s.prk with retention := false, saved := [], segOff := 0 }
    cry := .init
    mgt := { s.mgt with i3c := Mgt.init.i3c }
    power := { s.power with porstN := false, onVbak := false } }

/-- A register through a warm reset: RWV and W1C fields stay, RW fields take their reset values. -/
def keptReg (e : Nat × Reg3) : Nat × Reg3 :=
  let y := layout e.1
  let m := y.votedMask ||| y.w1c
  let f := fun (w : Word) => (w &&& m) ||| (y.reset &&& ~~~ m)
  (e.1, ⟨f e.2.a, f e.2.b, f e.2.c⟩)

/-- A link through a warm reset; a soft reset keeps a quarantine. -/
def Link.afterWarm (soft : Bool) (l : Nat) (k : Link) : Link :=
  if soft && k.state == .quarantine then k else { k.afterReset l with retrainCnt := k.retrainCnt }

/-- The state of R364 that a warm reset by WARM_N or a soft reset leaves, before the restart. -/
def State.warm (s : State) (soft : Bool) : State :=
  let dead := if soft then
      links16.foldl (fun m l => if (s.link l).state == .quarantine then m ||| linkBit l else m) 0 &&& s.home.dead
    else 0
  { s with
    csr := s.csr.map keptReg
    power := { s.power.pins with
      cap := s.power.cap, capNext := s.power.cap, overTemp := s.power.overTemp, wakeCause := s.power.wakeCause }
    links := s.links.map (fun e => (e.1, e.2.afterWarm soft e.1))
    ports := s.ports.map (fun e => (e.1, { Port.init with lossCnt := e.2.lossCnt }))
    queues := []
    arbs := []
    home := { Home.init with
      wide := if soft then s.home.wide else none, dead := dead, poisoned := s.home.poisoned, claimLink := s.home.claimLink, claimKind := s.home.claimKind }
    wp := .init
    sto := { s.sto with
      dies := s.sto.dies.map (fun e => (e.1, { e.2 with lsReads := 0, lsWrites := 0, rsReads := 0, rsWrites := 0, asleep := false }))
      corrections := [], lsStaged := Store.init.lsStaged, rsStaged := Store.init.rsStaged
      testOutcome := 0, testA := 0, testB := 0 }
    prk := { s.prk with
      size := s.prk.sizeSaved, resize := none, resizeDue := [], vacBusy := false, vacResult := 0, bootKind := 0 }
    mem := { s.mem with
      chans := s.mem.chans.map (fun e => (e.1, { Chan.init with
        retrainCnt := e.2.retrainCnt, wdqDelay := e.2.wdqDelay, rdqDelay := e.2.rdqDelay }))
      trained := false }
    cry := { s.cry with paving := [], paveWait := [], tagbuf := [] }
    mgt := { s.mgt with
      cmdFifo := [], overflow := false, cmdSeen := [], replyFifo := [], owedHost := 0, readers := [], telem := []
      trim := s.mgt.trimmed, trimNext := [], fellBack := false, shoulder := false, shoulderCause := 0, update := none
      late := none, host := .init, i3cp := .init, demand := 0, wpHits := 0, stHits := 0, pkHits := 0 }
    saf := { s.saf with
      safe := if soft && s.saf.safe == .halted then .halted else .normal
      drainBusy := false, overrunRun := 0, marker := true, overrunSeen := false, stepsDone := 0, wearOwed := false
      selfFailed := 0 }
    cnts := [] }

/-! ### Boot steps 2 to 4 -/

def sigOk (i : Option (List (BitVec 8))) : Bool :=
  match i with
  | some b => Config.signatureOk b
  | none => false

/-- The four checks of R303. -/
def fwOk (i : Option (List (BitVec 8))) : Bool :=
  match i with
  | none => false
  | some b =>
    let f := (Config.imageFwLevel b).toNat
    let u := (Config.imageUcLevel b).toNat
    Config.signatureOk b && decide (Config.otpFwMin ≤ f) && decide (f ≤ Config.otpFwMax)
      && decide (Config.otpUcMin ≤ u) && decide (u ≤ Config.otpUcMax)
      && decide ((Config.imageUcMin b).toNat ≤ u) && decide (u ≤ (Config.imageUcMax b).toNat)

def Mgt.img (m : Mgt) (n : Nat) : Option (List (BitVec 8)) := if n = 0 then m.slotA else m.slotB

/-- A trial boot that did not reach step 7 makes the next boot prefer the other slot (R305). -/
def Mgt.trialStart (m : Mgt) : Mgt :=
  if m.trialBoot then { m with prefer := 1 - m.prefer, trial := false, trialBoot := false }
  else if m.trial then { m with trialBoot := true }
  else m

/-- The first check of R303 that an image fails: 0 the signature, 1 `fw_level`, 2 `uc_level`, 3 the image's own microcode range;
4 when it passes them. -/
def fwFails (i : Option (List (BitVec 8))) : Nat :=
  match i with
  | none => 0
  | some b =>
    let f := (Config.imageFwLevel b).toNat
    let u := (Config.imageUcLevel b).toNat
    if !(Config.signatureOk b) then 0
    else if f < Config.otpFwMin ∨ Config.otpFwMax < f then 1
    else if u < Config.otpUcMin ∨ Config.otpUcMax < u then 2
    else if u < (Config.imageUcMin b).toNat ∨ (Config.imageUcMax b).toNat < u then 3 else 4

/-- A slot that fails is logged with the failed check: the slot in bit 0 of `detail`, the check in [3:1] (R303, log
entry 61). -/
def State.logSlot (s : State) (n : Nat) : State :=
  if fwOk (s.mgt.img n) then s
  else s.logEvent 10 0x80 .info none 0 (BitVec.ofNat 64 (n + 2 * fwFails (s.mgt.img n)))

/-- R303: the preferred slot, the other one, or shoulder mode. -/
def State.selectFw (s : State) : State :=
  let p := s.mgt.prefer
  let q := 1 - p
  if fwOk (s.mgt.img p) then s.setMgt { s.mgt with running := p, fellBack := false }
  else
    let s := s.logSlot p
    if fwOk (s.mgt.img q) then s.setMgt { s.mgt with running := q, fellBack := true }
    else
      let s := s.logSlot q
      s.setMgt { s.mgt with
        running := 0, shoulder := true, shoulderCause := if sigOk s.mgt.slotA || sigOk s.mgt.slotB then 1 else 2 }

/-- STRAP_RECOVER: the boot stops after step 2 with the links DISABLED (R368). -/
def State.recoverStop (s : State) : State :=
  let s := s.logSlot s.mgt.prefer
  let s := if fwOk (s.mgt.img s.mgt.prefer) then s else s.logSlot (1 - s.mgt.prefer)
  let s := { s with power := { s.power with boot := .recover } }
  forEach (fun l s => s.setLink l { s.link l with state := .disabled }) links16 s

/-- A failed training, or a configuration the device does not support: class X, and the boot stops (R237). -/
def State.trainBad (s : State) (bit : Nat) : State :=
  let s := { s with power := { s.power with boot := .trainStop } }
  (s.err rMemErr 7 bit .x none 0).stopState 7 (bit + 1)

/-- Training has passed on every channel (R237, R249): results saved under the same identification are loaded and only
checked. -/
def State.memTrained (s : State) (density : Nat) (ranks2 : Bool) (rate : BitVec 3) (clash : Bool) (ident : BitVec 16)
    (rfm : Option Nat) : State :=
  let ecc := s.bit rMemCtrl 3
  let s := s.emit (.training (s.mem.saved != some ident))
  { s with mem := { s.mem with
      chans := s.mem.chans.map (fun e => (e.1, { e.2 with pstate := .active }))
      trained := true, saved := some ident, rfm := rfm, density := density, ranks2 := ranks2
      rate := BitVec.ofNat 3 (min rate.toNat (s.fld rMemCtrl 0 3)), dbiOff := clash && ecc, linkEcc := ecc } }

/-! ### Boot step 5 -/

/-- Slots in some states become LOST, one class P entry each (R217, R229, R396). -/
def State.loseSlots (s : State) (hit : PState → Bool) : State :=
  forEach (fun (e : Nat × PSlot) s =>
    if hit e.2.pstate then
      (s.setPslot e.1 { e.2 with pstate := .lost, moved := [], next := 0, out := [], target := none, thenClose := false }).err rPrkErr 6 5 .p none
        (regionBase e.2.region)
    else s) s.prk.slots s

def PState.onTheWay (p : PState) : Bool := p == .parking || p == .unparking || p == .moving

/-- A resume writes mode register 23 with 0 (R254) and brings back the retained fields (R357). -/
def State.restoreRetained (s : State) : State :=
  let s := forEach (fun c s => s.emit (.modeReg23 c 0)) (List.range 16) s
  forEach (fun (e : Nat × Reg3) s => s.setReg3 e.1 e.2) s.prk.saved s

/-- A slot of the record's `ks_mask` other than KS0 holds no key (R261). -/
def State.keysMissing (s : State) : Bool :=
  match s.prk.sealRec with
  | some r => r.crcOk && (List.range 15).any (fun i => r.ksMask.getLsbD (i + 1) && (s.slotKeys (i + 1)).isNone)
  | none => false

/-- CRY_CTRL.ks_en takes the slots of `ks_mask` that hold keys (R261). -/
def State.enableKeys (s : State) (mask : BitVec 16) : State :=
  s.putReg rCryCtrl (BitVec.ofNat 32 (Nat.land mask.toNat s.keyBits))

/-- Clear the next epoch value from every cache frame before it is used (R209). -/
def State.syncPass (s : State) : State :=
  if s.sto.clearSaved then s
  else
    let target := nextEpoch s.sto.epochSaved
    let s := forEach (fun f s =>
      let r := s.quietRead f
      if frameEpoch r.1 == target then r.2.writeFrame f voidFrame else r.2) (s.framesUsed (cacheFrames s.prk.size)) s
    s.err rStoErr 5 10 .info none 0

/-- The epoch advances, and a pass toward the value after it starts (R183, R208, R209). -/
def State.advanceEpoch (s : State) : State :=
  let s := s.syncPass
  let e := nextEpoch s.sto.epochSaved
  { s with sto := { s.sto with
      epoch := e, epochSaved := e, nextClear := false, clearSaved := false, passBusy := true
      dies := s.sto.dies.map (fun d => (d.1, { d.2 with passPos := 0, passSaved := 0 })) } }

/-- The epoch is kept: the pass goes on from its persisted position. -/
def State.keepEpoch (s : State) : State :=
  { s with sto := { s.sto with
    epoch := s.sto.epochSaved, nextClear := s.sto.clearSaved, passBusy := !s.sto.clearSaved } }

/-- The spill list's lines enter the DRAM poison list, and the list is cleared (R229, R252). -/
def State.spillToPoison (s : State) : State :=
  let lines := s.prk.spill
  let s := { s with mem := { s.mem with poison := [] }, prk := { s.prk with spill := [], vacant := [] }
                    cry := { s.cry with paved := [] } }
  forEach (fun l s => s.poisonIn l) lines s

/-- Step 5 of the shoulder drain, run by the boot ROM (R340), with the epoch that the system segment records; `frames`: DRAM kept
its contents over the last stop. -/
def State.shoulderBoot (s : State) (frames parked : Bool) : State :=
  if s.mgt.shoulder then
    let s := { s with saf := { s.saf with drainBusy := true }, sto := { s.sto with epoch := s.sto.epochSaved } }
    let s := s.storeDown frames parked
    ({ s with saf := { s.saf with drainBusy := false } }).haltFull
  else s

/-- How a record reads in PRK_STATUS.boot_kind (R235). -/
def SealKind.bootKind : SealKind → Nat
  | .standby => 2 | .shutdown => 2 | .drained => 3

/-- Every condition of an intact seal (R229). -/
def State.sealIntact (s : State) (r : Seal) : Bool :=
  r.crcOk && r.kind == .standby && s.prk.retention && r.parkSize == s.prk.size && r.memCode == s.memCode && r.kcv == s.kcv

/-- A boot whose record is intact: everything is kept (R229). -/
def State.bootKept (s : State) (r : Seal) : State :=
  let s := { s with
    prk := { s.prk with vacant := r.vacant, bootKind := 1 }
    mem := { s.mem with poison := s.prk.poisonSaved }
    cry := { s.cry with paved := s.prk.pavedSaved } }
  ((s.loseSlots PState.onTheWay).shoulderBoot true true).keepEpoch

/-- A boot whose record does not let the epoch stay; `parked`: the PARKED slots are kept. -/
def State.bootLost (s : State) (parked standby : Bool) (kind : Nat) : State :=
  let s := { s with prk := { s.prk with bootKind := kind } }
  let s := s.loseSlots (fun p => p.onTheWay || (p == .parked && !parked))
  ((s.spillToPoison).shoulderBoot standby parked).advanceEpoch

/-- The seal judgement and the epoch decision (R183, R209, R229). -/
def State.decideEpoch (s : State) : State :=
  match s.prk.sealRec with
  | none => s.bootLost false false 0
  | some r =>
    if !r.crcOk then (s.err rPrkErr 6 4 .info none 0).bootLost false false 0
    else
      let s := s.enableKeys r.ksMask
      let ok := r.kcv == s.kcv
      if s.sealIntact r then s.bootKept r
      else
        let s := if r.kind == .standby || !ok then s.err rPrkErr 6 4 .info none 0 else s
        s.bootLost ok (r.kind == .standby && s.prk.retention) r.kind.bootKind

/-- A record that is not marked clean: every counter is charged 13 units (R205). -/
def State.chargeWear (s : State) : State :=
  if s.sto.wearClean then s
  else
    let charge := fun (d : Die) => { d with
      life := (List.range 528).map (fun g =>
        (g, ⟨min 0xffffffff (tget zeroDef d.persisted g + 13), (tget lifeDef d.life g).rem⟩)) }
    ((forEach (fun n s => s.setDie n (charge (s.die n))) (List.range 8) s).err rStoErr 5 9 .info none 0).dueScan

/-! ### Boot steps 6 and 7 -/

/-- The links start (R60, R369): an empty detachable position reads as DETACHED. -/
def State.startLinks (s : State) : State :=
  forEach (fun l s =>
    let k := s.link l
    if k.state == .detect then s.setLink l { k with state := k.startState l, present := !k.prsntHigh } else s) [14, 15] s

/-- The last part of every boot: PRK_CTRL shows the size in effect, the record is erased, tokens and budgets are granted in
full (log entry 20), traffic is admitted. -/
def State.bootEnd (s : State) : State :=
  let s := s.chargeWear
  let s := s.putReg rPrkCtrl (BitVec.ofNat 32 s.prk.size)
  let done := s.mgt.trial && !s.mgt.shoulder && s.mgt.running == s.mgt.prefer
  let s := { s with
    power := { s.power with boot := .run }
    prk := { s.prk with sealRec := none }
    sto := { s.sto with wearClean := false }
    mgt := { s.mgt with trialBoot := s.mgt.trialBoot && !done }
    saf := { s.saf with
      safe := if s.saf.safe == Safe.halted then Safe.halted else if s.mgt.shoulder then Safe.shoulder else Safe.normal
      marker := true } }
  let s := if s.prk.drainShort then
      ({ s with prk := { s.prk with drainShort := false } }).err rPrkErr 6 6 .info none 0 else s
  let s := if s.mgt.trimCrcOk then s else (s.setMgt { s.mgt with trim := [] }).logEvent 10 0x81 .c none 0
  (s.startLinks.replenish).driveAlert

/-- Step 5 of a boot that reads the record: it waits for keys, or decides (R261). -/
def State.step5 (s : State) (resume : Bool) : State :=
  let s := if resume then s.restoreRetained else s
  if s.keysMissing then { s with power := { s.power with boot := .keyWait } }
  else s.decideEpoch.bootEnd

/-- The key wait ends (R261). -/
def State.keysReady (s : State) : State :=
  if s.power.boot == .keyWait && s.saf.safe != .stop then s.decideEpoch.bootEnd else s

/-- Step 5 after a warm reset: no record, no decision; a slot on its way is LOST (R217, R366). -/
def State.step5Warm (s : State) : State :=
  if s.sto.epoch = 0 then s.step5 false
  else ((s.loseSlots PState.onTheWay).shoulderBoot true true).bootEnd

/-- How the boot comes about. -/
inductive BootWay where
  | cold | warm | resume
deriving DecidableEq, Repr

/-- Boot steps 1 to 7 (R366, R369). -/
def State.bootRun (s : State) (way : BootWay) (t : Train) : State :=
  let s := s.setMgt s.mgt.trialStart
  if s.power.straps.recover then s.recoverStop
  else
    let s := s.selectFw
    match t with
    | .mismatch => s.trainBad 6
    | .fail => s.trainBad 5
    | .pass d r rate clash ident rfm =>
      s.withVotes (· == rMemCtrl) (fun s =>
        let s := s.memTrained d.val r rate clash ident rfm
        match way with
        | .cold => s.step5 false
        | .resume => s.step5 true
        | .warm => s.step5Warm)

/-- Record the cause of the reset that took effect (R367, R370). -/
def State.cause (s : State) (n : Nat) : State := { s with power := { s.power with resetCause := n } }

end Sys2Proof.Machine
end

