-- ==== Sys2Proof/Machine/Power.lean ====
section
/-! DEFINITION. Supplies, pins and resets as events (R353 to R369), Idle (R354), Standby (R355, R357), the clock monitor
(R363) and the over-temperature stop (R391). -/
namespace Sys2Proof.Machine

/-! ### PORST_N and the key wait -/

/-- PORST_N goes low: everything ends at once, a drain included; its record is not written (R232, R364, R367). -/
def State.porstLow (s : State) : State :=
  let s := if s.power.boot == .powerDrain then { s with prk := { s.prk with sealRec := none } } else s
  s.cold

/-- PORST_N_ASSERT (R364). -/
def execPorstNAssert (s : State) : Res := s.porstLow.done

/-- PORST_N rises with the supplies and REFCLK in range (R359): the straps are sampled, and the cold boot runs. -/
def State.porstHigh (s : State) (straps : Straps) (t : Train) : State :=
  if s.power.porstN then s
  else
    let s := { s with power := { s.power with
      porstN := true, vmainOk := true, vaonOk := true, refclk := true, straps := straps } }
    (s.cause 0).bootRun .cold t

/-- PORST_N_RELEASE (R369). -/
def execPorstNRelease (straps : Straps) (train : Train) (s : State) : Res := (s.porstHigh straps train).done

/-- KEY_WAIT_TIMEOUT (R261). -/
def execKeyWaitTimeout (s : State) : Res := s.keysReady.done

/-! ### Warm resets (R364 to R366) -/

/-- A warm reset can begin: the device is not off, in Standby or in PORST_N, nor in the stop state, which only PORST_N ends
(R338). -/
def State.mayWarm (s : State) : Bool :=
  (s.power.boot == .run || s.power.boot == .standbyEntry || s.power.boot == .shutdown || s.power.boot == .keyWait
    || s.power.boot == .recover) && s.saf.safe != .stop

/-- The warm drain begins; what needs no waiting is done at once (R365). -/
def State.warmStart (s : State) (soft : Bool) : State :=
  let s := { s.wake with power := { s.wake.power with boot := .warmDrain, softPending := soft, replyPath := none } }
  if s.quiet then s.warmDrained else s

/-- WARM_N_FALL (R365, R367). -/
def execWarmNFall (s : State) : Res :=
  let s := { s with power := { s.power with warmN := false } }
  State.done (if s.mayWarm then s.warmStart false else s)

/-- Stalled reads of the reply FIFO are answered BUS_ERR when a reset takes effect (R317). -/
def State.failReaders (s : State) : State :=
  forEach (fun (r : Nat × Nat × Nat) s =>
    if r.1 < noQueue then (s.answer r.1 r.2.1 0 (badRes stBusErr)).answerSend r.1 else s) s.mgt.readers s

/-- The warm drain has ended: the reset takes effect, is released, and the device restarts (R364 to R366). -/
def State.warmEnd (s : State) (t : Train) : State :=
  if s.power.boot == .warmDrain && s.quiet then
    let soft := s.power.softPending
    let s := (s.warmDrained.failReaders).warm soft
    let s := { s with power := { s.power with warmN := true } }
    (s.cause (if soft then 2 else 1)).bootRun .warm t
  else s

/-- WARM_DRAIN_END (R366). -/
def execWarmDrainEnd (train : Train) (s : State) : Res := (s.warmEnd train).done

/-! ### Main power (R231, R232, R357, R358) -/

/-- The power-loss drain: its writes and the DRAINED record, unless VBAK is too low or the device has stopped. -/
def State.powerLoss (s : State) (errs : List (Nat × FrameErr)) : State :=
  let ok := s.power.vbakOk && s.saf.safe != .stop
  let s := if ok then (s.powerWrite errs).writeSeal .drained else { s with prk := { s.prk with sealRec := none } }
  let s := (s.loseDram 0xff).unpowered
  { s with
    prk := { s.prk with drainShort := !s.power.vbakOk }
    power := { s.power with boot := if ok then .powerDrain else .off, onVbak := ok, offDrain := true } }

/-- Power goes without a drain. -/
def State.powerOff (s : State) : State :=
  let s := (s.loseDram 0xff).unpowered
  { s with power := { s.power with boot := .off, offDrain := false } }

/-- VMAIN_SENSE falls below its threshold (R358, R367). -/
def State.vmainFall (s : State) (errs : List (Nat × FrameErr)) : State :=
  if !s.power.vmainOk then s
  else
    let s := { s with power := { s.power with vmainOk := false } }
    match s.power.boot with
    | .reset => s
    | .standby => s
    | .off => s
    | .powerDrain => s
    | .shutdown => if s.power.replyPath.isNone then s.powerOff else s.powerLoss errs
    | _ => s.powerLoss errs

/-- VMAIN_SENSE_FALL (R231, R358). -/
def execVmainSenseFall (errs : List (Nat × FrameErr)) (s : State) : Res := (s.vmainFall errs).done

/-- The drain has run to its end. -/
def State.drainOver (s : State) : State :=
  if s.power.boot == .powerDrain then { s with power := { s.power with boot := .off, onVbak := false } } else s

/-- VBAK falls below 3.0 V: a drain that still runs stops without its record (R232, R358). -/
def State.vbakFall (s : State) : State :=
  let s := { s with power := { s.power with vbakOk := false } }
  if s.power.boot == .powerDrain then
    ({ s with prk := { s.prk with sealRec := none, drainShort := true } }).drainOver
  else s

/-- VBAK_LOW (R232). -/
def execVbakLow (s : State) : Res := s.vbakFall.done

/-- VBAK_RISE (R358). -/
def execVbakRise (s : State) : Res := State.done { s with power := { s.power with vbakOk := true } }

/-- VAON falls below its operating minimum: the keys, the retention flag and the retention storage are gone (R228, R261). -/
def execVaonFall (s : State) : Res :=
  State.done { s with
    power := { s.power with vaonOk := false }
    prk := { s.prk with retention := false, saved := [] }
    cry := { s.cry with keys := [] } }

/-- STBY_ACK goes to a level. -/
def State.driveStby (s : State) (b : Bool) : State :=
  if s.power.stbyAck == b then s else { s with power := { s.power with stbyAck := b } }.emit (.stbyAck b)

/-- The boot out of Standby (R357): the cap is kept (R360), and the packets that I3C received in Standby (R318); the retained
fields come back in step 5. -/
def State.resume (s : State) (t : Train) : State :=
  let cap := s.power.cap
  let cause := s.power.wakeCause
  let kept := { PathSt.init with packets := s.mgt.i3cp.packets, badLen := s.mgt.i3cp.badLen }
  let quar := links16.filter (fun l => (s.link l).state == .quarantine)
  let eq := (links16.filter (fun l => s.bit (rLnkCtrl l) 7)).map (fun l => (l, (s.link l).eqPreset))
  let s := s.unpowered
  let s := forEach (fun (e : Nat × Int) s => s.setLink e.1 { s.link e.1 with eqPreset := e.2, eqKeep := true }) eq s
  let s := forEach (fun l s => s.setLink l { s.link l with state := .quarantine }) quar s
  let s := { s with
    power := { s.power with cap := cap, capNext := cap, wakeCause := cause }
    mgt := { s.mgt with i3cp := kept } }
  (s.cause 3).bootRun .resume t

/-- VMAIN_SENSE rises above its threshold (R353, R357, R358). -/
def State.vmainRise (s : State) (t : Train) : State :=
  if s.power.vmainOk then s
  else
    let s := { s.drainOver with power := { s.drainOver.power with vmainOk := true, vaonOk := true } }
    if !s.power.porstN then s
    else match s.power.boot with
      | .standby =>
        let s := if s.power.stbyAck then { s with power := { s.power with wakeCause := 0 } } else s
        (s.driveStby false).resume t
      | .off =>
        if s.power.offDrain then (s.cause 4).bootRun .cold t
        else
          let f := s.fresh
          (f.2.cause (f.1 % 5)).bootRun .cold t
      | _ => s

/-- VMAIN_SENSE_RISE (R357). -/
def execVmainSenseRise (train : Train) (s : State) : Res := (s.vmainRise train).done

/-! ### Stops (R363, R391) -/

/-- The core is clocked from REFCLK. -/
def Boot.clocked : Boot → Bool
  | .reset => false | .standby => false | .off => false | .powerDrain => false | _ => true

/-- REFCLK_MISSING (R363). -/
def execRefclkMissing (s : State) : Res :=
  let s := { s with power := { s.power with refclk := false } }
  State.done (if s.power.boot.clocked then (s.logEvent 11 0x82 .x none 0).stopState 11 0x82 else s)

/-- OVER_TEMPERATURE_STOP (R391): ALERT_N goes low whatever the masks hold. -/
def execOverTemperatureStop (s : State) : Res :=
  State.done (if s.power.boot.clocked && !s.power.overTemp then
      let s := (s.logEvent 11 0x81 .x none 0).stopState 11 0x81
      ({ s with power := { s.power with overTemp := true } }).driveAlert
    else s)

/-! ### Idle (R354) -/

/-- The conditions of R354. -/
def State.mayIdle (s : State) : Bool :=
  s.bit rGlbPwrCtrl 0 && s.power.boot == .run && s.links.all (fun e => e.2.state != .active) && s.slotList.isEmpty
    && s.dmaIdle && s.mgt.owedHost == 0 && s.mgt.i3cp.packets.isEmpty

/-- IDLE_ENTRY (R354). -/
def execIdleEntry (s : State) : Res :=
  State.done (if s.mayIdle then { s with power := { s.power with idle := true } } else s)

/-- IDLE_EXIT (R354). -/
def execIdleExit (s : State) : Res := s.wake.done

/-! ### Standby (R355, R357) -/

/-- The reply of STANDBY_ENTER has been read out, or 10 ticks have passed (R355 step 9): links that do not listen for a wake
go to electrical idle. -/
def State.standbyReached (s : State) : State :=
  if s.power.boot == .standbyEntry && s.power.replyPath.isNone then
    let s := forEach (fun l s =>
      if s.bit (rLnkCtrl l) 7 || (s.link l).state == .quarantine then s else s.setLink l { s.link l with state := .disabled }) links16 s
    ({ s with power := { s.power with boot := .standby } }).driveStby true
  else s

/-- STANDBY_REPLY_WAIT_END (R355). -/
def execStandbyReplyWaitEnd (s : State) : Res := s.standbyReached.done

/-- The cause may wake the device (R357). -/
def State.wakes (s : State) (w : Wake) : Bool :=
  match w with
  | .vmain => true
  | .link l => s.bit (rLnkCtrl l.val) 7
  | .i3c => s.bit rGlbPwrCtrl 1

def wakeCode : Wake → Nat
  | .vmain => 0 | .link _ => 1 | .i3c => 2

/-- A wake cause in Standby. -/
def State.standbyWake (s : State) (w : Wake) : State :=
  if s.power.boot == .standby && s.power.stbyAck && s.wakes w then
    ({ s with power := { s.power with wakeCause := wakeCode w } }).driveStby false
  else s

/-- STANDBY_WAKE (R357). -/
def execStandbyWake (w : Wake) (s : State) : Res := (s.standbyWake w).done

end Sys2Proof.Machine
end

