-- ==== Sys2Proof/Machine/Tick.lean ====
section
/-! DEFINITION. The milestone tick (R31, R295 to R300): what a boundary applies, the scheduled steps, the safety checks
(R52, R97, R130, R293, R333 to R336), the governor (R360 to R362), tick overruns (R337), and the end of the shoulder drain
(R339). -/
namespace Sys2Proof.Machine

/-! ### Overruns and the completion marker (R295, R337) -/

/-- The steps of a tick: 1 and 5 in shoulder mode, 7 in ticks whose number modulo 64 is 63, and after a tick whose step 7 did
not complete (R295, R296, R304; bit n - 1 for step n). -/
def State.stepsDue (s : State) : Nat :=
  if s.mgt.shoulder then 0x11 else if s.tick.toNat % 64 = 63 ∨ s.saf.wearOwed then 0x7f else 0x3f

/-- The steps of the running tick that do not complete. -/
def State.stepsMissing (s : State) : Nat := Nat.land s.stepsDue (Nat.xor s.saf.stepsDone.toNat 0x7f)

/-- Scheduled work runs: after boot, and not in the stop state. -/
def State.ticking (s : State) : Bool := s.power.boot.live && s.saf.safe != .stop

/-- Firmware clears pending bits of sources that are routed to I3C; which of them it clears at a time is not stated, and is a
free value (R322, log entry 61). -/
def State.fwClear (s : State) : State :=
  let m := Nat.land s.pendBits (s.fld rIntrMask 20 10)
  if m = 0 then s
  else
    let f := s.fresh
    let hit := BitVec.ofNat 32 (Nat.land f.1 m)
    let s := f.2.writeReg rIntrPend hit
    (if hit.getLsbD 2 then (s.writeReg rIntrDmaLo (s.reg rIntrDmaLo)).writeReg rIntrDmaHi (s.reg rIntrDmaHi) else s).driveAlert

/-- SCHEDULED_WORK_DONE (R295, R297): the marker is written when every step of the tick has finished. -/
def execScheduledWorkDone (s : State) : Res :=
  State.done (if s.ticking && s.stepsMissing == 0 then { s with saf := { s.saf with marker := true } }.fwClear else s)

/-- Step 7 of the running tick is due, and not done. -/
def State.wearDue (s : State) : Bool := s.ticking && s.stepsDue.testBit 6 && !(s.saf.stepsDone.getLsbD 6)

/-- WEAR_PERSIST (R205, R208, R295, R328): step 7. -/
def execWearPersist (s : State) : Res :=
  State.done (if s.wearDue then
      let s := s.persistWear
      { s with saf := { s.saf with stepsDone := s.saf.stepsDone ||| 0x40, wearOwed := false } }
    else s)

/-- A tick has overrun: class C, or class X on the second one in a row, which enters shoulder mode, or the stop state out of
shoulder mode; a halted device stays halted (R337, R338). -/
def State.overrun (s : State) : State :=
  let d := BitVec.ofNat 64 s.stepsMissing
  let run := s.saf.overrunRun + 1
  let s := { s with saf := { s.saf with overrunRun := min 2 run, overrunSeen := true } }
  if run < 2 then (s.err rSafErr 11 0 .c none 0 d).raise 8 0
  else
    let s := (s.err rSafErr 11 1 .x none 0 d).raise 8 0
    match s.saf.safe with
    | .normal => s.enterShoulder 3
    | .shoulder => s.stopState 11 2
    | _ => s

/-- The watchdog at the boundary: no marker, and not yet reported. -/
def State.watchdog (s : State) : State :=
  if s.ticking && !s.saf.marker && !s.saf.overrunSeen then s.overrun else s

/-- TICK_OVERRUN (R337). -/
def execTickOverrun (s : State) : Res := s.watchdog.done

/-! ### Staged values (R32, R296) -/

def State.stepDone (s : State) (n : Nat) : Bool := s.saf.stepsDone.getLsbD (n - 1)

/-- Budgets and token grants of steps 3 and 4: the registers' values, or those staged last. -/
def State.stage34 (s : State) : State :=
  let s := if s.stepDone 3 then
      { s with sto := { s.sto with lsStaged := s.reg rLsBudget, rsStaged := s.reg rRsBudget } } else s
  if s.stepDone 4 then
    { s with wp := { s.wp with
        grantPort := s.fld rPfCtrl 6 10, grantPool := s.fld rPfPool 0 20, grantCap := s.fld rPfDieCap 0 17 } }
  else s

/-- The calibration step of the closed tick takes effect (R250, R299, R300): with a drift beyond 1/16 of a unit interval the
channel's write DQ delay changes. The delay and the equalization found are free values. -/
def State.stage2 (s : State) (i : Nat) : State :=
  if s.stepDone 2 then
    let f := s.fresh
    let g := f.2.fresh
    let s := if s.saf.drift then g.2.setChan i { g.2.chan i with wdqDelay := f.1 } else g.2
    let s := if (s.link i).state == .active then s.setLink i { s.link i with eqPreset := Int.ofNat g.1 } else s
    s.setMgt { s.mgt with band := s.mgt.bandNext }
  else s

/-- The throttle level of the next tick (R362). -/
def nextLevel (n : Nat) (guard under : Bool) : Nat :=
  if guard then min 7 (n + 1) else if under then n - 1 else n

/-- The governor step of the closed tick takes effect (R360, R362). -/
def State.stage6 (s : State) (under : Bool) : State :=
  if s.stepDone 6 then
    { s with power := { s.power with
        cap := s.power.capNext, thermal := s.power.thermalNext, level := nextLevel s.power.level s.power.guardTick under } }
  else s

/-- Accepted trims apply (R301). -/
def State.stageTrim (s : State) : State := s.setMgt { s.mgt with trim := s.mgt.trimmed, trimNext := [] }

/-! ### Step 1: telemetry (R298) -/

/-- A sensor's sample with its factory offset and trim (R299, R301). -/
def State.tempOf (s : State) (i : Nat) (raw : Word) : Word :=
  raw + BitVec.ofInt 32 (Config.factoryTemp i + s.trimOf 1 i)

/-- The write-pulse width that a die uses in the band in use, in percent of the factory width for the band with its trim, and
its read sense reference (R299, R301). -/
def State.pulseOf (s : State) (die : Nat) : Int × Int := (Config.factoryPulse (die * 8 + s.mgt.band), 100 + s.trimOf 2 die)
def State.senseOf (s : State) (die : Nat) : Int := Config.factorySense die + s.trimOf 3 die

/-- Hits per 65,536 demand reads; 0 with none. -/
def perDemand (hits demand : Nat) : Nat := if demand = 0 then 0 else min 65536 (hits * 65536 / demand)

/-- The telemetry items of a sample. -/
def State.telemOf (s : State) (raw : List Word) : List Word :=
  let m := s.mgt
  let it := fun i => if i < 8 then s.tempOf i (raw.getD i 0) else raw.getD i 0
  let sum := (List.range 7).foldl (fun n i => n + (raw.getD (8 + i) 0).toNat) 0
  (List.range 16).map it ++ [BitVec.ofNat 32 sum, BitVec.ofNat 32 (perDemand m.wpHits m.demand),
    BitVec.ofNat 32 (perDemand m.stHits m.demand), BitVec.ofNat 32 (perDemand m.pkHits m.demand),
    BitVec.ofNat 32 s.capEff, BitVec.ofNat 32 m.band]

def State.step1 (s : State) (raw : List Word) : State :=
  let ws := s.telemOf raw
  s.setMgt { s.mgt with telem := (List.range 22).foldl (fun t i => tset wordDef t i (ws.getD i 0)) [] }

/-! ### Step 2: the store band (R299) -/

/-- Lower limits of bands 1 to 5 in 1/16 °C. -/
def bandLimits : List Int := [-160, 320, 800, 1200, 1520]

def bandOf (t : Int) : Nat := (bandLimits.filter (fun l => decide (l ≤ t))).length

/-- The band after a step at the hottest store temperature: up at the limit, down 2 °C below the limit in use. -/
def nextBand (cur : Nat) (t : Int) : Nat :=
  let b := bandOf t
  if cur ≤ b then b
  else if t ≤ bandLimits.getD (cur - 1) 0 - 32 then b else cur

/-- The hottest of some temperature items. -/
def State.hottest (s : State) (items : List Nat) : Int :=
  let ts := items.map (fun i => (s.telemItem i).toInt)
  ts.foldl max (ts.headD 0)

def State.step2 (s : State) : State :=
  s.setMgt { s.mgt with bandNext := nextBand s.mgt.band (s.hottest [4, 5, 6, 7]) }

/-! ### Step 5: safety checks -/

/-- The device's halves of a link's toll sums (R52). -/
def Link.tollsOk (k : Link) : Bool :=
  !(k.state.alive) || classes5.all (fun c =>
    k.txAvail.get c + k.txSent.get c == k.adv.get c + k.txRet.get c && decide (k.txAvail.get c ≤ k.adv.get c)
      && decide (k.rxHeld.get c + k.rxFreed.get c ≤ devAdv c))

/-- Shared entries and transaction slots of a port: within its limits, or within those before the last lowering (R79,
R97). -/
def State.portPoolOk (s : State) (p : Nat) : Bool :=
  decide (((s.portEnts p).filter (fun e => !e.reserved)).length ≤ max (s.poolMax p) (s.port p).poolWas)
    && decide (s.portSlots p ≤ max (s.slotMax p) (s.port p).slotWas)

/-- Pool entries and transaction slots (R97). -/
def State.poolsOk (s : State) : Bool :=
  decide (s.sharedHeld ≤ 8192)
    && s.queues.all (fun e => decide ((e.2.ents.filter (fun q => q.reserved)).length ≤ 1) && s.portPoolOk (e.1 / 8))
    && s.portsSeen.all s.portPoolOk

/-- Lay-by entries (R97). -/
def State.laybysOk (s : State) : Bool :=
  decide (s.laybyHeld ≤ 2048)
    && s.ports.all (fun e => decide (e.2.layby.length ≤ 64)
      && e.2.accepted == e.2.merged + e.2.released + e.2.layby.length)

/-- A demand miss whose DRAM read is in flight (R93). -/
def Slot.missRead (t : Slot) : Bool :=
  t.dram == .reading && (t.kind == .rdShared || t.kind == .rdUnique || t.kind == .upgrade || t.kind == .rdOnce
    || t.kind == .rdRsv)

/-- Miss tokens: the ports that hold one are those of the demand misses with a DRAM read in flight, one each (R97). -/
def State.tokensOk (s : State) : Bool :=
  s.ports.all (fun e => match e.2.missToken with
    | some k => (s.slot k).any (fun t => t.missRead && match t.org with | .port p _ => p == e.1 | _ => false)
    | none => true)
  && s.slotList.all (fun e => match e.2.org with
    | .port p _ => !e.2.missRead || (s.port p).missToken == some e.1
    | _ => true)

/-- Slots lie in their pools (R130). -/
def State.slotsOk (s : State) : Bool := s.slotList.all (fun e => decide (e.1 < 4096))

/-- A lent line's region is covered (R130). -/
def State.lentCovered (s : State) (line : Nat) : Bool :=
  s.regionBusy (regionNo line) || s.presence (regionNo line) != 0

/-- Lent home copies: in ways, and in cache frames of the current epoch and park frames. -/
def State.lentLines (s : State) : List Nat :=
  (s.wp.ways.filterMap (fun e => if e.2.valid && e.2.hstate.lent then some (wayLine e.1 e.2) else none))
    ++ (s.framesUsed (2 ^ 25)).filterMap (fun f =>
      match s.holds f (s.image f) with
      | some (line, st, true) => if st.lent && (s.wayOf line).isNone then some line else none
      | _ => none)

def State.filtersOk (s : State) : Bool := s.lentLines.all s.lentCovered

/-- Descriptor tokens (R293). -/
def State.dmaTokensOk (s : State) : Bool :=
  decide (s.dma.foldl (fun n e => n + e.2.tokens) 0 ≤ 512) && s.dma.all (fun e => decide (e.2.tokens ≤ 8))

/-- A conservation fault (R336): the drift bit is logged as class D and halts the domain; SAF_ERR.cons_fault has no entry
of its own. -/
def State.drift (s : State) (ok : Bool) (off block bit : Nat) : State :=
  if ok then s
  else ((s.err off block bit .d none 0).setBit rSafErr 5).haltDomain block (bit + 1) (fun _ => false)

/-- A failed toll check of a link (R336). -/
def State.tollDrift (s : State) (l : Nat) : State :=
  if (s.link l).tollsOk then s
  else (s.err rSafErr 11 5 .d (linkPort l) 0).haltDomain 11 6 (fun _ => false)

/-- The conservation checks of R52, R97, R130 and R293. -/
def State.conservation (s : State) : State :=
  let s := forEach (fun l s => s.tollDrift l) links16 s
  let s := s.drift s.poolsOk rPrtErr 2 1
  let s := s.drift s.laybysOk rPrtErr 2 2
  let s := s.drift s.tokensOk rPrtErr 2 3
  let s := s.drift s.slotsOk rHomErr 3 4
  let s := s.drift s.filtersOk rHomErr 3 5
  s.drift s.dmaTokensOk rDmaErr 9 0

/-- One copy of a word with its voted fields at the majority (R14). -/
def fixCopy (o : Nat) (r : Reg3) (w : Word) : Word :=
  (layout o).voted.foldl (fun w f => match voteField r f.1 f.2 with
    | some v => (w &&& ~~~ (fieldMask f.1 f.2)) ||| BitVec.ofNat 32 (v * 2 ^ f.1)
    | none => w) w

def fixReg (o : Nat) (r : Reg3) : Reg3 := ⟨fixCopy o r r.a, fixCopy o r r.b, fixCopy o r r.c⟩

/-- The voter sweep of one register (R335). -/
def State.sweepReg (s : State) (e : Nat × Reg3) : State :=
  if !(votesHold e.1 e.2) then s.voteFatal
  else if fixReg e.1 e.2 = e.2 then s
  else
    let s := s.setReg3 e.1 (fixReg e.1 e.2)
    ({ s with saf := { s.saf with voteOff := BitVec.ofNat 23 e.1 } }).err rSafErr 11 2 .c none 0

def State.voterSweep (s : State) : State := forEach (fun e s => s.sweepReg e) s.csr s

/-- The self-tests of the ten groups (R334): group 8 leads to shoulder mode, any other to the stop state. -/
def State.selfTests (s : State) (failed : BitVec 10) : State :=
  let s := { s with saf := { s.saf with
    lastSelf := ~~~ failed, lastSelfTick := BitVec.ofNat 32 s.tick.toNat, selfFailed := s.saf.selfFailed ||| failed } }
  if failed = 0 then s
  else
    let s := s.err rSafErr 11 4 .x none 0 (BitVec.ofNat 64 failed.toNat)
    if failed &&& 0x2ff ≠ 0 then s.stopState 11 5 else s.enterShoulder 4

def State.step5s (s : State) (failed : BitVec 10) : State := (s.conservation.voterSweep).selfTests failed

/-! ### Step 6: the thermal cap (R360) -/

/-- The thermal cap after a governor step: hottest controller or store sensor in 1/16 °C, and whether the DRAM was hot. -/
def nextThermal (cap : Nat) (t : Int) (hot : Bool) : Nat :=
  if t ≥ 1760 then 3000
  else if t ≥ 1680 || hot then max 3000 (cap - 500)
  else if t < 1600 then min 11000 (cap + 500)
  else cap

def State.step6 (s : State) : State :=
  let t := s.hottest (List.range 8)
  let n := nextThermal s.power.thermal t s.power.hotTick
  { s with power := { s.power with
      thermalNext := n
      thermal := if t ≥ 1760 then 3000 else s.power.thermal
      allowance := if t ≥ 1760 then min s.power.allowance 3000 else s.power.allowance } }

/-! ### What firmware reads of the DRAM each tick (R244, R248) -/

def State.dramReports (s : State) (t : TickIn) : State :=
  let s := forEach (fun c s =>
    let ch := s.chan c
    s.setChan c { ch with refMult := ch.refNext, refNext := t.refMult.getD c 0, eccTick := 0 }) (List.range 16) s
  let s := { s with saf := { s.saf with drift := t.drift } }
  let s := if t.dramHot then s.err rMemErr 7 7 .info none 0 else s
  let s := { s with power := { s.power with hotTick := t.dramHot } }
  if t.wrEccFatal && s.mem.linkEcc then (s.err rMemErr 7 3 .d none 0).haltDomain 7 4 (fun _ => false) else s

/-! ### Policing (R95) -/

/-- A port in excess for `strike_ticks` ticks in a row has its link quarantined. -/
def State.police (s : State) (p : Nat) : State :=
  let u := s.port p
  let n := s.fld rPrtGctl 0 8
  let k := if u.excess then u.strikes + 1 else 0
  if n != 0 && decide (n ≤ k) then
    let s := s.setPort p { u with excess := false, strikes := 0 }
    let s := s.setReg3 rPrtStrike ⟨BitVec.ofNat 32 p, BitVec.ofNat 32 p, BitVec.ofNat 32 p⟩
    (s.err rPrtErr 2 0 .info (some p) 0).quarantine (p / 64) 7
  else
    let s := s.setPort p { u with excess := false, strikes := if n = 0 then 0 else k }
    s.noteExcess (p / 64) p

/-! ### The boundary -/

def PathSt.tickOn (p : PathSt) : PathSt :=
  { p with session := p.session.map (fun x => { x with idle := x.idle + 1 }), lockout := p.lockout.map (· + 1) }

/-- What closes with the tick: the watchdog, staged values, the guard, policing. -/
def State.tickClose (s : State) (t : TickIn) : State :=
  let owed := s.wearDue
  let s := s.watchdog
  let s := { s with saf := { s.saf with wearOwed := owed } }
  let s := if s.saf.marker then { s with saf := { s.saf with overrunRun := 0 } } else s
  let s := (s.stage34.stage2 (s.tick.toNat % 16)).stageTrim
  let s := s.stage6 (decide (t.meter * 100 < s.power.allowance * 85))
  let s := { s with power := { s.power with guard := false, guardTick := false } }
  forEach (fun p s => s.police p) s.portsSeen s

/-- The steps that complete in the tick that opens. -/
def State.tickWork (s : State) (t : TickIn) : State :=
  let run := BitVec.ofNat 7 (Nat.land t.steps.toNat (Nat.land s.stepsDue 0x3f))
  let due := fun n => run.getLsbD (n - 1)
  let s := { s with saf := { s.saf with stepsDone := run, marker := false, overrunSeen := false } }
  let s := if due 1 then s.step1 t.telem else s
  let s := s.setMgt { s.mgt with demand := 0, wpHits := 0, stHits := 0, pkHits := 0 }
  let s := if due 2 then s.step2 else s
  let s := s.dramReports t
  let s := if due 5 then s.step5s t.selfFail else s
  if due 6 then s.step6 else s

/-- A soft reset takes effect, also in the key wait and after STRAP_RECOVER (R324, R365). -/
def State.softTick (s : State) : State :=
  if s.power.softPending && s.mayWarm then s.warmStart true else s

/-- The tick count rises; sessions age (R314). -/
def State.tickOn (s : State) : State :=
  let s := { s with tick := s.tick + 1, fc := 0 }
  let s := s.setMgt { s.mgt with host := s.mgt.host.tickOn, i3cp := s.mgt.i3cp.tickOn }
  (forEach (fun l s => s.setLink l { s.link l with retrainsTick := 0 }) links16 s).count 0x01 {}

/-- The tick boundary (R31, R295). -/
def State.boundary (s : State) (t : TickIn) : State :=
  if !s.power.boot.clocked then s
  else if !s.ticking then s.tickOn.softTick
  else
    let s := (s.tickClose t).tickOn
    let s := if s.mgt.trial && s.mgt.running == s.mgt.prefer then s.setMgt { s.mgt with trial := false } else s
    let s := s.replenish.tickWork t
    s.softTick

/-- TICK_BOUNDARY (R31, R295). -/
def execTickBoundary (t : TickIn) (s : State) : Res := (s.boundary t).done

/-- GUARD_ENGAGE (R361). -/
def execGuardEngage (s : State) : Res :=
  State.done (if s.ticking then { s with power := { s.power with guard := true, guardTick := true } } else s)

/-! ### The shoulder drain (R339) -/

/-- Requests have finished and every region has been recalled (R339, steps 2 and 3). -/
def State.shoulderReady (s : State) : Bool :=
  s.saf.safe == .shoulder && s.saf.drainBusy && s.quiet && s.home.recallDue.isEmpty && s.home.recovering.isEmpty
    && s.filterValid.all (fun e => !e.2.recalling)

/-- Steps 4 to 6: partners are told, data goes to DRAM, traffic resumes. A full poison list halts the domain (R198). -/
def State.shoulderEnd (s : State) : State :=
  if !s.shoulderReady then s
  else
    let s := s.haltNotice 11 (if s.mgt.shoulderCause = 3 then 2 else 5) .x true
    let s := forEach (fun l s => s.setLink l { s.link l with roleCaching := false }) links16 s
    let s := forEach (fun (e : Nat × Way) s =>
      if e.2.hstate == .hp then s.poisonPut (wayLine e.1 e.2) else s) s.dirtyWays s
    let s := s.drainDirty
    let s := s.storeDown true true
    let s := { s with
      wp := { s.wp with ways := [], wbq := [] }
      home := { s.home with filter := [] }
      sto := { s.sto with corrections := [] }
      saf := { s.saf with drainBusy := false } }
    (s.logEvent 11 0x80 .info none 0).haltFull

/-- SHOULDER_DRAIN_DONE (R339). -/
def execShoulderDrainDone (s : State) : Res := s.shoulderEnd.done

end Sys2Proof.Machine
end

