-- ==== Sys2Proof/Machine/Signpost.lean ====
section
/-! DEFINITION. Signpost commands (R306 to R317, R324): packets and replies, the checks before a command is executed, Tollgate
sessions, and one operation for each opcode of R308 with the layouts of R310. -/
namespace Sys2Proof.Machine

/-! ### Bytes -/

def leNat (b : List Nat) (off n : Nat) : Nat := bytesNat ((b.drop off).take n)

def zeroAt (b : List Nat) (off n : Nat) : Bool := leNat b off n == 0

def wordOf (b : List Nat) (i : Nat) : Word := BitVec.ofNat 32 (leNat b (4 * i) 4)

/-- Bytes as words, byte 0 in bits [7:0] of the first; the last word is padded with 0 (R315). -/
def packWords (b : List Nat) : List Word := (List.range ((b.length + 3) / 4)).map (wordOf b)

def wordBytes (ws : List Word) : List Nat := (ws.map (fun w => natBytes 4 w.toNat)).flatten

def keyBytes (k : Key) : List Nat := natBytes 32 k.toNat

/-- The unique ID as IDENTIFY gives it (R310). -/
def uidBytes : List Nat := natBytes 16 Config.uniqueId.toNat

/-! ### The opcode table (R308, R310) -/

/-- A row of R308 with its parameter sizes of R310, without the trailer. -/
structure OpRow where
  code : Nat
  level : Nat
  shoulder : Bool
  minLen : Nat
  maxLen : Nat
deriving DecidableEq, Repr

def opRows1 : List OpRow :=
  [⟨0x01, 0, true, 0, 0⟩, ⟨0x02, 0, true, 0, 0⟩, ⟨0x03, 0, true, 0, 0⟩, ⟨0x04, 0, true, 0, 248⟩, ⟨0x10, 0, true, 20, 20⟩,
   ⟨0x11, 0, true, 32, 32⟩, ⟨0x12, 1, true, 0, 0⟩, ⟨0x13, 0, false, 36, 36⟩, ⟨0x14, 0, true, 0, 0⟩, ⟨0x20, 0, false, 2, 2⟩,
   ⟨0x30, 0, true, 4, 4⟩, ⟨0x31, 1, true, 0, 0⟩, ⟨0x40, 2, true, 4, 4⟩, ⟨0x41, 2, true, 5, 240⟩, ⟨0x42, 2, true, 0, 0⟩,
   ⟨0x43, 2, true, 4, 4⟩]

def opRows2 : List OpRow :=
  [⟨0x50, 2, false, 108, 108⟩, ⟨0x51, 2, false, 4, 4⟩, ⟨0x52, 1, false, 0, 0⟩, ⟨0x60, 0, false, 4, 4⟩, ⟨0x61, 0, false, 4, 4⟩,
   ⟨0x62, 1, false, 8, 8⟩, ⟨0x70, 1, true, 0, 0⟩, ⟨0x71, 1, false, 0, 0⟩, ⟨0x72, 1, false, 0, 0⟩, ⟨0x73, 1, false, 4, 4⟩,
   ⟨0x74, 0, false, 0, 0⟩, ⟨0x80, 0, false, 4, 4⟩, ⟨0x81, 0, false, 4, 4⟩, ⟨0x90, 0, false, 0, 0⟩, ⟨0x91, 1, false, 4, 4⟩]

def opRow (op : Nat) : Option OpRow := (opRows1 ++ opRows2).find? (fun r => r.code == op)

/-- What the I3C path serves in the stop state (R237, R341); the Tollgate commands are those a firmware update needs. -/
def stopServed (op : Nat) : Bool := [0x01, 0x02, 0x03, 0x10, 0x11, 0x12, 0x30, 0x40, 0x41, 0x42].contains op

/-! ### Reply status (R307) -/

def sOk : Nat := 0
def sPending : Nat := 1
def sBadOpcode : Nat := 2
def sBadLength : Nat := 3
def sBadParam : Nat := 4
def sDenied : Nat := 5
def sAuthFail : Nat := 6
def sBusy : Nat := 7
def sShoulder : Nat := 8
def sRefused : Nat := 9
def sSeq : Nat := 10

/-! ### Paths -/

def Path.byte : Path → Nat
  | .host => 0 | .i3c => 1

def State.pathSt (s : State) (p : Path) : PathSt :=
  match p with
  | .host => s.mgt.host
  | .i3c => s.mgt.i3cp

def State.setPath (s : State) (p : Path) (v : PathSt) : State :=
  match p with
  | .host => s.setMgt { s.mgt with host := v }
  | .i3c => s.setMgt { s.mgt with i3cp := v }

/-- A command packet taken apart (R306): `params` without the trailer of an authenticated command. -/
structure Cmd where
  path : Path
  opcode : Nat
  seq : Nat
  length : Nat
  flags : Nat
  body : List Nat
  bad : Bool
deriving DecidableEq, Repr

def Cmd.ofBytes (p : Path) (bad : Bool) (b : List Nat) : Cmd where
  path := p
  opcode := leNat b 0 2
  seq := leNat b 2 2
  length := leNat b 4 2
  flags := leNat b 6 2
  body := b.drop 8
  bad := bad

def Cmd.auth (c : Cmd) : Bool := c.flags % 2 == 1

def Cmd.params (c : Cmd) : List Nat := if c.auth then c.body.take (c.length - 8) else c.body.take c.length

/-- Header bytes of a command or reply. -/
def headBytes (op seq len last : Nat) : List Nat := natBytes 2 op ++ natBytes 2 seq ++ natBytes 2 len ++ natBytes 2 last

/-- The words of the host path's oldest whole packet, and the words behind it (R315). -/
def splitPacket (ws : List Word) : Option (List Word × List Word) :=
  match ws with
  | a :: b :: r =>
    let n := (b.toNat % 2 ^ 16 + 3) / 4
    if r.length < n then none else some (a :: b :: r.take n, r.drop n)
  | _ => none

/-- The next command of a path. -/
def State.nextCmd (s : State) (p : Path) : Option Cmd :=
  match p with
  | .host => (splitPacket s.mgt.cmdFifo).map (fun w => Cmd.ofBytes .host false (wordBytes w.1))
  | .i3c =>
    match s.mgt.i3cp.packets, s.mgt.i3cp.badLen with
    | b :: _, bad :: _ => some (Cmd.ofBytes .i3c bad (b.map BitVec.toNat))
    | _, _ => none

/-- Take the command off its path. -/
def State.dropCmd (s : State) (p : Path) : State :=
  match p with
  | .host => s.setMgt { s.mgt with cmdFifo := ((splitPacket s.mgt.cmdFifo).map Prod.snd).getD [] }
  | .i3c => s.setPath .i3c { s.mgt.i3cp with packets := s.mgt.i3cp.packets.tail, badLen := s.mgt.i3cp.badLen.tail }

/-- Firmware does other work now: the scheduled work of the tick has ended (R297). -/
def State.atWork (s : State) : Bool := s.saf.marker || s.saf.safe == .stop

/-- The management processor, or the boot ROM, serves commands on the path now (R297, R309, R316, R318, R341, R368): after
the marker of the tick, one command at a time, the host path only while its reply FIFO has room for a reply. -/
def State.serves (s : State) (p : Path) : Bool :=
  s.power.replyPath != some p && s.atWork && !s.shutOver &&
    match p with
    | .host => s.live && decide (s.mgt.replyFifo.length + 64 ≤ 128)
    | .i3c => s.power.boot.clocked && s.mgt.i3cp.reply.isNone

/-! ### Replies (R307, R315 to R317, R319) -/

/-- A reply packet: results only with OK, and a trailer under the session key of a verified command (R310, R313). -/
def replyBytes (op seq status : Nat) (res : List Nat) (key : Option Key) : List Nat :=
  let r := if status = 0 then res else []
  match key with
  | none => headBytes op seq r.length status ++ r
  | some k =>
    let m := headBytes op seq (r.length + 8) status ++ r
    m ++ (hmac256 k m).take 8

/-- Send a final reply on its path. -/
def State.cmdReply (s : State) (p : Path) (b : List Nat) : State :=
  match p with
  | .host =>
    let s := s.setMgt { s.mgt with owedHost := s.mgt.owedHost - 1 }
    (s.pushReply (packWords b)).raise 0 0
  | .i3c =>
    let s := s.setPath .i3c { s.mgt.i3cp with reply := some (b.map (BitVec.ofNat 8)) }
    if s.mgt.i3c.canIbi then s.emit (.ibi [0x01]) else s

/-! ### Tollgate (R311 to R314) -/

def State.tollAlarm (s : State) : State := s.logEvent 10 0x82 .alarm none 0

/-- The key of a level; none while it is blank. -/
def State.levelKey (s : State) (level : Nat) : Option Key := if level = 1 then s.mgt.opKey else s.mgt.ownKey

/-- The trailer of a command (R313). -/
def Cmd.trailerOk (c : Cmd) (k : Key) : Bool :=
  let m := headBytes c.opcode c.seq c.length c.flags ++ c.params
  (hmac256 k m).take 8 == (c.body.drop (c.length - 8)).take 8

/-- What authentication makes of a command: a status that ends it, or the level it runs at and the key of its reply. -/
inductive Auth where
  | bad (status : Nat) (key : Option Key) (s : State)
  | level (n : Nat) (key : Option Key) (s : State)

/-- An AUTH_FAIL in a session; the third in a row closes it (R313). -/
def Session.failed (x : Session) : Option Session := if 2 ≤ x.fails then none else some { x with fails := x.fails + 1 }

def State.authenticate (s : State) (c : Cmd) : Auth :=
  if !c.auth then .level 0 none s
  else
    let u := s.pathSt c.path
    match u.session with
    | none => .bad sAuthFail none s
    | some x =>
      if !(c.trailerOk x.key) then .bad sAuthFail none ((s.setPath c.path { u with session := x.failed }).tollAlarm)
      else
        let later := match x.lastSeq with | some n => decide (n < c.seq) | none => true
        let x := { x with idle := 0 }
        if !later then .bad sSeq none (s.setPath c.path { u with session := some { x with fails := 0 } })
        else .level x.level (some x.key) (s.setPath c.path { u with session := some { x with lastSeq := some c.seq } })

/-- The answer to a command that a session has accepted: an AUTH_FAIL counts, any other ends the row (R313). -/
def State.sessionNote (s : State) (p : Path) (key : Option Key) (fail : Bool) : State :=
  let u := s.pathSt p
  if key.isSome then
    s.setPath p { u with session := u.session.bind (fun x => if fail then x.failed else some { x with fails := 0 }) }
  else s

/-- A session ends after a verified command with the last `seq` (R314). -/
def State.lastSeqClose (s : State) (c : Cmd) (key : Option Key) : State :=
  if key.isSome && c.seq == 0xffff then s.setPath c.path { s.pathSt c.path with session := none } else s

/-! ### Serving a command (R306 to R310) -/

/-- What executing a command gives: a final reply, or none yet. -/
inductive Done where
  | now (status : Nat) (res : List Nat) (s : State)
  | later (s : State)

/-- Refusals that come before authentication: header, opcode, shoulder mode, the state of the device, length. -/
def State.preCheck (s : State) (c : Cmd) : Option Nat :=
  if c.bad || decide (248 < c.length) then some sBadLength
  else if 2 ≤ c.flags then some sBadParam
  else match opRow c.opcode with
    | none => some sBadOpcode
    | some r =>
      if (s.saf.safe == .stop || s.power.boot == .trainStop) && !(stopServed c.opcode) then some sRefused
      else if s.mgt.shoulder && !r.shoulder then some sShoulder
      else if s.power.boot == .recover && !r.shoulder then some sRefused
      else
        let n := c.length - (if c.auth then 8 else 0)
        if (c.auth && decide (c.length < 8)) || n < r.minLen || decide (r.maxLen < n)
            || (c.opcode == 4 && c.auth && decide (240 < n)) then some sBadLength
        else none

/-- The least level of an opcode. -/
def opLevel (op : Nat) : Nat := ((opRow op).map (·.level)).getD 0

/-- Serve a command with the operation of its opcode. -/
def State.serve (s : State) (c : Cmd) (run : State → Cmd → Option Key → Done) : State :=
  let s := s.dropCmd c.path
  let say := fun (s : State) (status : Nat) (res : List Nat) (key : Option Key) =>
    (s.lastSeqClose c key).cmdReply c.path (replyBytes c.opcode c.seq status res key)
  match s.preCheck c with
  | some st => say s st [] none
  | none =>
    match s.authenticate c with
    | .bad st key s => say s st [] key
    | .level n key s =>
      if n < opLevel c.opcode then say (s.sessionNote c.path key false) sDenied [] key
      else match run s c key with
        | .now st res s => say (s.sessionNote c.path key (st == sAuthFail)) st res key
        | .later s => (s.sessionNote c.path key false).lastSeqClose c key

/-- The command of the row is served if it is the next one on its path. -/
def State.signpost (s : State) (p : Path) (want : Nat → Bool) (run : State → Cmd → Option Key → Done) : State :=
  let s := s.wake
  match s.nextCmd p with
  | some c => if want c.opcode && s.serves p then s.serve c run else s
  | none => s

/-! ### Information commands -/

/-- IDENTIFY. -/
def doIdentify (s : State) (_ : Cmd) (_ : Option Key) : Done :=
  .now sOk (natBytes 2 0x4400 ++ [Config.stepping.toNat, 0] ++ uidBytes) s

/-- One slot of GET_VERSIONS: a slot without a valid image reads 0. -/
def versionBytes (i : Option (List (BitVec 8))) : List Nat :=
  match i with
  | some b =>
    if sigOk i then natBytes 4 (Config.imageVersion b).toNat ++
      [(Config.imageFwLevel b).toNat, (Config.imageUcLevel b).toNat, 0, 0]
    else List.replicate 8 0
  | none => List.replicate 8 0

/-- GET_VERSIONS. -/
def doVersions (s : State) (_ : Cmd) (_ : Option Key) : Done :=
  .now sOk (versionBytes s.mgt.slotA ++ versionBytes s.mgt.slotB ++ natBytes 4 Config.romVersion.toNat) s

/-- GET_STATUS. -/
def doStatus (s : State) (_ : Cmd) (_ : Option Key) : Done :=
  .now sOk (natBytes 4 s.fwStatus.toNat ++ natBytes 4 s.homStatus.toNat ++ [s.pwrState, s.saf.safe.code, 0, 0]) s

/-- ECHO. -/
def doEcho (s : State) (c : Cmd) (_ : Option Key) : Done := .now sOk c.params s

/-- TELEM_READ. -/
def doTelem (s : State) (c : Cmd) (_ : Option Key) : Done :=
  let i := c.params.getD 0 0
  let n := c.params.getD 1 0
  if 21 < i ∨ n = 0 ∨ 22 < i + n then .now sBadParam [] s
  else .now sOk ((List.range n).map (fun k => natBytes 4 (s.telemItem (i + k)).toNat)).flatten s

/-- The 32 bytes of a log entry (R328). -/
def LogEnt.bytes (e : LogEnt) : List Nat :=
  natBytes 8 e.tick.toNat ++ natBytes 4 e.fc ++ [e.block, e.code, e.cls.code + (if e.noPort then 8 else 0), 0]
    ++ natBytes 2 e.port ++ natBytes 5 e.addr ++ [0] ++ natBytes 8 e.detail.toNat

/-- LOG_READ. -/
def doLogRead (s : State) (c : Cmd) (_ : Option Key) : Done :=
  let i := leNat c.params 0 2
  let n := c.params.getD 2 0
  if 1023 < i ∨ n = 0 ∨ 7 < n ∨ c.params.getD 3 0 ≠ 0 then .now sBadParam [] s
  else .now sOk ((List.range n).map (fun k =>
    match s.saf.log[i + k]? with
    | some e => e.bytes
    | none => List.replicate 32 0)).flatten s

/-- LOG_CLEAR. -/
def doLogClear (s : State) (_ : Cmd) (_ : Option Key) : Done :=
  .now sOk [] { s with saf := { s.saf with log := [], lost := 0 } }

/-- SELFTEST_STATUS. -/
def doSelfTest (s : State) (_ : Cmd) (_ : Option Key) : Done :=
  .now sOk (natBytes 2 s.saf.lastSelf.toNat ++ natBytes 2 s.saf.selfFailed.toNat ++ natBytes 4 s.saf.lastSelfTick.toNat) s

/-- Pop entries of the event FIFO, low word first. -/
def drainEvents : Nat → State → List Nat × State
  | 0, s => ([], s)
  | n + 1, s =>
    match s.mgt.evtFifo with
    | [] => ([], s)
    | (lo, hi) :: _ =>
      let r := drainEvents n s.evtPop.2
      (natBytes 4 lo.toNat ++ natBytes 4 hi.toNat ++ r.1, r.2)

/-- EVENT_DRAIN. -/
def doEventDrain (s : State) (c : Cmd) (_ : Option Key) : Done :=
  let n := c.params.getD 0 0
  if n = 0 ∨ 30 < n ∨ !(zeroAt c.params 1 3) then .now sBadParam [] s
  else
    let r := drainEvents n s
    .now sOk r.1 r.2

/-- What a physical segment is used for: 0 in service, 1 retired, 2 closed, 3 free spare (R310). -/
def Die.segUse (d : Die) (g : Nat) : Nat :=
  match (List.range 512).find? (fun l => d.pseg l == g) with
  | some l => if d.closed.contains l then 2 else 0
  | none =>
    if g < 512 then 1
    else if d.spareFree (g - 512) then 3
    else match d.retire with
      | some r => if r.spare = g then 0 else 1
      | none => 1

/-- WEAR_READ. -/
def doWear (s : State) (c : Cmd) (_ : Option Key) : Done :=
  let n := c.params.getD 0 0
  let g := leNat c.params 2 2
  if 7 < n ∨ c.params.getD 1 0 ≠ 0 ∨ 527 < g then .now sBadParam [] s
  else
    let d := s.die n
    .now sOk (natBytes 4 (tget lifeDef d.life g).units ++ [d.freeSpares, d.segUse g, 0, 0]) s

/-- One entry of PARK_MAP_READ. -/
def State.mapBytes (s : State) (k : Nat) : List Nat :=
  let p := s.pslot k
  natBytes 2 p.region ++ [p.pstate.code, 0] ++ natBytes 2 p.gen ++ natBytes 2 p.pointer

/-- PARK_MAP_READ. -/
def doParkMap (s : State) (c : Cmd) (_ : Option Key) : Done :=
  let i := leNat c.params 0 2
  let n := c.params.getD 2 0
  if 1023 < i ∨ n = 0 ∨ 30 < n ∨ 1024 < i + n ∨ c.params.getD 3 0 ≠ 0 then .now sBadParam [] s
  else .now sOk ((List.range n).map (fun k => s.mapBytes (i + k))).flatten s

/-- GOVERNOR_GET. -/
def doGovGet (s : State) (_ : Cmd) (_ : Option Key) : Done :=
  .now sOk (natBytes 2 s.power.cap ++ natBytes 2 s.capEff ++ natBytes 2 (s.telemItem 16).toNat ++ [0, 0]) s

/-- GOVERNOR_SET: the cap is staged for the governor step. -/
def doGovSet (s : State) (c : Cmd) (_ : Option Key) : Done :=
  let v := leNat c.params 0 2
  if v < 3000 ∨ 11000 < v ∨ !(zeroAt c.params 2 2) then .now sBadParam [] s
  else .now sOk [] { s with power := { s.power with capNext := v } }

/-! ### Tollgate commands (R311, R312, R314) -/

/-- Ticks for which a path is locked out (R312). -/
def lockTicks : Nat := 1000

/-- TOLLGATE_OPEN. -/
def doOpen (s : State) (c : Cmd) (_ : Option Key) : Done :=
  let lv := c.params.getD 0 0
  let u := s.pathSt c.path
  if (lv ≠ 1 ∧ lv ≠ 2) ∨ !(zeroAt c.params 1 3) then .now sBadParam [] s
  else if u.lockout.any (· < lockTicks) then .now sBusy [] s
  else match s.levelKey lv with
    | none => .now sRefused [] s
    | some _ =>
      let v := Config.freeChallenge s.free
      let s := { s with free := s.free + 1 }
      .now sOk (keyBytes v)
        (s.setPath c.path { u with challenge := some ⟨lv, BitVec.ofNat 128 (leNat c.params 4 16), v⟩ })

/-- The response that the host owes (R312). -/
def Challenge.answer (x : Challenge) (k : Key) (p : Path) : List Nat :=
  hmac256 k (keyBytes x.value ++ natBytes 16 x.nonce.toNat ++ [x.level, Path.byte p] ++ uidBytes)

/-- The session key (R312). -/
def Challenge.sessionKey (x : Challenge) (k : Key) : Key :=
  keyOfBytes (hmac256 k ([0x54, 0x53] ++ keyBytes x.value ++ natBytes 16 x.nonce.toNat))

/-- A response that does not verify: an alarm, and a lock-out after the third in a row. -/
def State.openFailed (s : State) (p : Path) : State :=
  let u := s.pathSt p
  let s := s.setPath p { u with
    challenge := none, openFails := if u.openFails = 2 then 0 else u.openFails + 1
    lockout := if u.openFails = 2 then some 0 else u.lockout }
  s.tollAlarm

/-- TOLLGATE_AUTH. -/
def doAuth (s : State) (c : Cmd) (_ : Option Key) : Done :=
  let u := s.pathSt c.path
  match u.challenge with
  | none => .now sAuthFail [] (s.openFailed c.path)
  | some x =>
    match s.levelKey x.level with
    | none => .now sAuthFail [] (s.openFailed c.path)
    | some k =>
      if x.answer k c.path == c.params then
        .now sOk [] (s.setPath c.path { u with
          challenge := none, openFails := 0, session := some ⟨x.level, x.sessionKey k, none, 0, 0⟩ })
      else .now sAuthFail [] (s.openFailed c.path)

/-- TOLLGATE_CLOSE. -/
def doClose (s : State) (c : Cmd) (_ : Option Key) : Done :=
  .now sOk [] (s.setPath c.path { s.pathSt c.path with session := none })

/-- TOLLGATE_PROVISION. -/
def doProvision (s : State) (c : Cmd) (_ : Option Key) : Done :=
  let lv := c.params.getD 0 0
  let k := keyOfBytes (c.params.drop 4)
  if (lv ≠ 1 ∧ lv ≠ 2) ∨ !(zeroAt c.params 1 3) then .now sBadParam [] s
  else if c.path = .host ∨ (s.levelKey lv).isSome then .now sRefused [] s
  else .now sOk [] (s.setMgt (if lv = 1 then { s.mgt with opKey := some k } else { s.mgt with ownKey := some k }))

/-- Ticks after which a session closes (R314). -/
def idleTicks : Nat := 60000

/-- SESSION_STATUS. -/
def doSession (s : State) (c : Cmd) (_ : Option Key) : Done :=
  match (s.pathSt c.path).session with
  | some x => .now sOk ([x.level, Path.byte c.path] ++ natBytes 2 (idleTicks - x.idle)) s
  | none => .now sOk [0, Path.byte c.path, 0, 0] s

/-! ### Firmware update (R303, R305) -/

/-- FW_UPDATE_BEGIN: the slot that is not running is erased. -/
def doFwBegin (s : State) (c : Cmd) (_ : Option Key) : Done :=
  let n := leNat c.params 0 4
  let slot := 1 - s.mgt.running
  if n = 0 ∨ 2097152 < n then .now sBadParam [] s
  else
    let m := { s.mgt with update := some ⟨slot, n, []⟩ }
    .now sOk [] (s.setMgt (if slot = 0 then { m with slotA := none } else { m with slotB := none }))

/-- FW_UPDATE_DATA. -/
def doFwData (s : State) (c : Cmd) (_ : Option Key) : Done :=
  let off := leNat c.params 0 4
  let d := c.params.drop 4
  match s.mgt.update with
  | none => .now sRefused [] s
  | some u =>
    if u.size < off + d.length then .now sBadParam [] s
    else
      let bytes := (List.range d.length).foldl (fun t i => tput (off + i) (BitVec.ofNat 8 (d.getD i 0)) t) u.bytes
      .now sOk [] (s.setMgt { s.mgt with update := some { u with bytes := bytes } })

/-- The image as it lies in the slot: a byte that no FW_UPDATE_DATA wrote is open. -/
def Update.image (u : Update) : List (BitVec 8) := (List.range u.size).map (tget Config.erasedByte u.bytes)

/-- FW_UPDATE_COMMIT. -/
def doFwCommit (s : State) (_ : Cmd) (_ : Option Key) : Done :=
  match s.mgt.update with
  | none => .now sRefused [] s
  | some u =>
    let img := u.image
    let m := { s.mgt with update := none }
    let m := if u.slot = 0 then { m with slotA := some img } else { m with slotB := some img }
    if fwOk (some img) then
      .now sOk ([u.slot, 0, 0, 0] ++ natBytes 4 (Config.imageVersion img).toNat)
        (s.setMgt { m with prefer := u.slot, trial := true, trialBoot := false })
    else .now sRefused [] (s.setMgt m)

/-- FW_SLOT_SELECT. -/
def doFwSelect (s : State) (c : Cmd) (_ : Option Key) : Done :=
  let n := c.params.getD 0 0
  if 1 < n ∨ !(zeroAt c.params 1 3) then .now sBadParam [] s
  else .now sOk [] (s.setMgt { s.mgt with prefer := n, trial := false, trialBoot := false })

/-! ### Keys (R259 to R261) -/

/-- KEY_LOAD. -/
def doKeyLoad (s : State) (c : Cmd) (_ : Option Key) : Done :=
  let n := c.params.getD 0 0
  if n = 0 ∨ 15 < n ∨ !(zeroAt c.params 1 3) then .now sBadParam [] s
  else if s.ksEnabled n then .now sRefused [] s
  else match keyUnwrap (Config.wrapKey Config.otpRootKey) (c.params.drop 4) with
    | none => .now sBadParam [] s
    | some b =>
      let k : Keys := ⟨keyOfBytes (b.take 32), keyOfBytes ((b.drop 32).take 32), keyOfBytes (b.drop 64)⟩
      .now sOk [] (s.setCry { s.cry with keys := tset noneDef s.cry.keys n (some k) })

/-- KEY_UNLOAD: the keys are zeroed. -/
def doKeyUnload (s : State) (c : Cmd) (_ : Option Key) : Done :=
  let n := c.params.getD 0 0
  if n = 0 ∨ 15 < n ∨ !(zeroAt c.params 1 3) then .now sBadParam [] s
  else if s.ksEnabled n then .now sRefused [] s
  else .now sOk [] (s.setCry { s.cry with keys := tset noneDef s.cry.keys n none })

/-- KEY_READY ends the key wait (R261). -/
def doKeyReady (s : State) (_ : Cmd) (_ : Option Key) : Done := .now sOk [] s.keysReady

/-! ### Calibration items (R299, R301, R310) -/

/-- The index of a trim item is in range. -/
def trimIndexOk (item i : Nat) : Bool := if item = 0 then decide (i ≤ 15) else decide (item ≤ 3) && decide (i ≤ 7)

/-- The range of a trim. -/
def trimMax (item : Nat) : Int := if item = 0 then 2 else if item = 1 then 32 else if item = 2 then 6 else 3

def factoryValue (item i : Nat) : Int :=
  if item = 0 then Config.factoryEq i else if item = 1 then Config.factoryTemp i
  else if item = 2 then Config.factoryPulse i else Config.factorySense i

def factoryIndexOk (item i : Nat) : Bool :=
  if item = 2 then decide (i < 64) && decide (i % 8 ≤ 5) else trimIndexOk item i

def intBytes (v : Int) : List Nat := natBytes 4 (BitVec.ofInt 32 v).toNat

/-- CAL_FACTORY_READ. -/
def doFactory (s : State) (c : Cmd) (_ : Option Key) : Done :=
  let item := c.params.getD 0 0
  let i := c.params.getD 1 0
  if !(factoryIndexOk item i) || !(zeroAt c.params 2 2) then .now sBadParam [] s
  else .now sOk (intBytes (factoryValue item i)) s

/-- The user trim record as written: an accepted trim is in it before it applies. -/
def Mgt.trimValue (m : Mgt) (k : Nat) : Int :=
  match m.trimNext.reverse.find? (fun e => e.1 == k) with
  | some e => e.2
  | none => tget intDef m.trim k

/-- CAL_TRIM_READ. -/
def doTrimRead (s : State) (c : Cmd) (_ : Option Key) : Done :=
  let item := c.params.getD 0 0
  let i := c.params.getD 1 0
  if !(trimIndexOk item i) || !(zeroAt c.params 2 2) then .now sBadParam [] s
  else .now sOk (intBytes (s.mgt.trimValue (trimKey item i))) s

/-- CAL_TRIM_WRITE. -/
def doTrimWrite (s : State) (c : Cmd) (_ : Option Key) : Done :=
  let item := c.params.getD 0 0
  let i := c.params.getD 1 0
  let v := (BitVec.ofNat 32 (leNat c.params 4 4)).toInt
  if !(trimIndexOk item i) || !(zeroAt c.params 2 2) || decide (v < -(trimMax item)) || decide (trimMax item < v) then
    .now sBadParam [] s
  else .now sOk [] (s.setMgt { s.mgt with trimNext := s.mgt.trimNext ++ [(trimKey item i, v)], trimCrcOk := true })

/-! ### Resets and stops by command (R324, R355) -/

/-- SOFT_RESET: the reset takes effect within 2 ticks. -/
def doSoftReset (s : State) (_ : Cmd) (_ : Option Key) : Done :=
  .now sOk [] { s with power := { s.power with softPending := true } }

/-- The reply FIFO of a path has room for a late reply of four words (R316). -/
def State.lateRoom (s : State) (p : Path) : Bool := p == .i3c || decide (s.mgt.replyFifo.length + 4 ≤ 128)

/-- Finish a stop whose waits are over, after the marker of the tick (R297): the last writes, then the reply. -/
def State.finishStop (s : State) : State :=
  match s.power.replyPath, s.mgt.late with
  | some p, some w =>
    if !s.stopReady || !s.atWork || !(s.lateRoom p) then s
    else
      let s := if s.power.boot == .standbyEntry then s.standbyEnd else s.shutdownEnd
      let s := { s with power := { s.power with replyPath := none, replyOut := some p } }
      (s.setMgt { s.mgt with late := none }).cmdReply p (replyBytes w.opcode w.seq sOk [] w.key)
  | _, _ => s

/-- Begin a stop: admission ends, channels stop; the reply comes when everything is written. -/
def beginStop (b : Boot) (s : State) (c : Cmd) (key : Option Key) : Done :=
  if s.power.boot != .run then .now sRefused [] s
  else
    let s := s.stopAdmission b
    let s := { s with power := { s.power with replyPath := some c.path } }
    .later (s.setMgt { s.mgt with late := some ⟨c.opcode, c.seq, key⟩ }).finishStop

/-- A stop that has begun goes on, or a new one begins. -/
def State.stopCmd (s : State) (p : Path) (b : Boot) (op : Nat) : State :=
  if s.power.boot == b && s.power.replyPath == some p then s.finishStop
  else s.signpost p (· == op) (beginStop b)

/-! ### Meanings -/

/-- PENDING_REPLY (R317): the header of the oldest command whose final reply is owed, with status PENDING. -/
def execPendingReply (p : Path) (s : State) : Res :=
  let h : Option (Nat × Nat) :=
    match s.mgt.late, s.power.replyPath == some .host, s.nextCmd .host with
    | some w, true, _ => some (w.opcode, w.seq)
    | _, _, some c => some (c.opcode, c.seq)
    | _, _, none => none
  State.done (match p, h with
    | .host, some h =>
      if s.live && s.mgt.owedHost != 0 && decide (s.mgt.replyFifo.length + 2 ≤ 128) then
        (s.pushReply (packWords (headBytes h.1 h.2 0 sPending))).raise 0 0
      else s
    | _, _ => s)

/-- SESSION_IDLE_CLOSE (R314). -/
def execSessionIdleClose (p : Path) (s : State) : Res :=
  let u := s.pathSt p
  State.done (match u.session with
    | some x => if idleTicks ≤ x.idle then s.setPath p { u with session := none } else s
    | none => s)

/-- TOLLGATE_LOCKOUT_END (R312). -/
def execTollgateLockoutEnd (p : Path) (s : State) : Res :=
  let u := s.pathSt p
  State.done (if u.lockout.any (lockTicks ≤ ·) then s.setPath p { u with lockout := none } else s)

/-- IDENTIFY (R310). -/
def execIdentify (p : Path) (s : State) : Res := (s.signpost p (· == 0x01) doIdentify).done

/-- GET_VERSIONS (R310). -/
def execGetVersions (p : Path) (s : State) : Res := (s.signpost p (· == 0x02) doVersions).done

/-- GET_STATUS (R310). -/
def execGetStatus (p : Path) (s : State) : Res := (s.signpost p (· == 0x03) doStatus).done

/-- ECHO (R310). -/
def execEcho (p : Path) (s : State) : Res := (s.signpost p (· == 0x04) doEcho).done

/-- TOLLGATE_OPEN (R312). -/
def execTollgateOpen (p : Path) (s : State) : Res := (s.signpost p (· == 0x10) doOpen).done

/-- TOLLGATE_AUTH (R312). -/
def execTollgateAuth (p : Path) (s : State) : Res := (s.signpost p (· == 0x11) doAuth).done

/-- TOLLGATE_CLOSE (R314). -/
def execTollgateClose (p : Path) (s : State) : Res := (s.signpost p (· == 0x12) doClose).done

/-- TOLLGATE_PROVISION (R311). -/
def execTollgateProvision (p : Path) (s : State) : Res := (s.signpost p (· == 0x13) doProvision).done

/-- SESSION_STATUS (R310). -/
def execSessionStatus (p : Path) (s : State) : Res := (s.signpost p (· == 0x14) doSession).done

/-- TELEM_READ (R298). -/
def execTelemRead (p : Path) (s : State) : Res := (s.signpost p (· == 0x20) doTelem).done

/-- LOG_READ (R328). -/
def execLogRead (p : Path) (s : State) : Res := (s.signpost p (· == 0x30) doLogRead).done

/-- LOG_CLEAR (R328). -/
def execLogClear (p : Path) (s : State) : Res := (s.signpost p (· == 0x31) doLogClear).done

/-- FW_UPDATE_BEGIN (R305). -/
def execFwUpdateBegin (p : Path) (s : State) : Res := (s.signpost p (· == 0x40) doFwBegin).done

/-- FW_UPDATE_DATA (R305). -/
def execFwUpdateData (p : Path) (s : State) : Res := (s.signpost p (· == 0x41) doFwData).done

/-- FW_UPDATE_COMMIT (R303, R305). -/
def execFwUpdateCommit (p : Path) (s : State) : Res := (s.signpost p (· == 0x42) doFwCommit).done

/-- FW_SLOT_SELECT (R308). -/
def execFwSlotSelect (p : Path) (s : State) : Res := (s.signpost p (· == 0x43) doFwSelect).done

/-- KEY_LOAD (R259, R260). -/
def execKeyLoad (p : Path) (s : State) : Res := (s.signpost p (· == 0x50) doKeyLoad).done

/-- KEY_UNLOAD (R260). -/
def execKeyUnload (p : Path) (s : State) : Res := (s.signpost p (· == 0x51) doKeyUnload).done

/-- KEY_READY (R261). -/
def execKeyReady (p : Path) (s : State) : Res := (s.signpost p (· == 0x52) doKeyReady).done

/-- CAL_FACTORY_READ (R299). -/
def execCalFactoryRead (p : Path) (s : State) : Res := (s.signpost p (· == 0x60) doFactory).done

/-- CAL_TRIM_READ (R301). -/
def execCalTrimRead (p : Path) (s : State) : Res := (s.signpost p (· == 0x61) doTrimRead).done

/-- CAL_TRIM_WRITE (R301). -/
def execCalTrimWrite (p : Path) (s : State) : Res := (s.signpost p (· == 0x62) doTrimWrite).done

/-- SOFT_RESET (R324). -/
def execSoftReset (p : Path) (s : State) : Res := (s.signpost p (· == 0x70) doSoftReset).done

/-- SHUTDOWN (R324). -/
def execShutdown (p : Path) (s : State) : Res := (s.stopCmd p .shutdown 0x71).done

/-- STANDBY_ENTER (R355). -/
def execStandbyEnter (p : Path) (s : State) : Res := (s.stopCmd p .standbyEntry 0x72).done

/-- GOVERNOR_SET (R360). -/
def execGovernorSet (p : Path) (s : State) : Res := (s.signpost p (· == 0x73) doGovSet).done

/-- GOVERNOR_GET (R360). -/
def execGovernorGet (p : Path) (s : State) : Res := (s.signpost p (· == 0x74) doGovGet).done

/-- WEAR_READ (R205). -/
def execWearRead (p : Path) (s : State) : Res := (s.signpost p (· == 0x80) doWear).done

/-- PARK_MAP_READ (R217). -/
def execParkMapRead (p : Path) (s : State) : Res := (s.signpost p (· == 0x81) doParkMap).done

/-- SELFTEST_STATUS (R334). -/
def execSelftestStatus (p : Path) (s : State) : Res := (s.signpost p (· == 0x90) doSelfTest).done

/-- EVENT_DRAIN (R320). -/
def execEventDrain (p : Path) (s : State) : Res := (s.signpost p (· == 0x91) doEventDrain).done

/-- SIGNPOST_RESERVED_OPCODE (R307, R308). -/
def execSignpostReservedOpcode (p : Path) (s : State) : Res :=
  (s.signpost p (fun op => (opRow op).isNone) (fun s _ _ => .now sBadOpcode [] s)).done

end Sys2Proof.Machine
end

