-- ==== Sys2Proof/Machine/Control.lean ====
section
/-! DEFINITION. Writes of the control space (R371 to R376): key slots and windows (R260, R265, R271), the command FIFO (R315),
counter values (R347), interrupts (R322), the reservation granule (R148), and the one operation that takes a write to its
register, for the write rows and for the writes of ports. -/
namespace Sys2Proof.Machine

/-! ### Key slots and windows -/

/-- A configuration write was refused. -/
def State.cfgRefused (s : State) : State := s.err rCryErr 8 0 .info none 0

/-- A valid window names the key slot. -/
def State.slotNamed (s : State) (k : Nat) : Bool := s.windows.any (fun w => s.winSlot w == k)

/-- The bit that a write leaves in `ks_en` for slot `k`: a slot without a key stays disabled, a named slot enabled (R260). -/
def State.ksNext (s : State) (v : Word) (k : Nat) : Bool :=
  if v.getLsbD k then s.ksEnabled k || (s.slotKeys k).isSome else s.ksEnabled k && s.slotNamed k

/-- A write of CRY_CTRL (R260). -/
def State.ksEnWrite (s : State) (v : Word) : State :=
  let w := pack ((List.range 16).map (fun k => (k, flag (s.ksNext v k))))
  let s := s.writeReg rCryCtrl w
  if w = v &&& 0xffff then s else s.cfgRefused

/-- The granules of a window leave the paved bitmap when it is an integrity window (R271). -/
def State.unpave (s : State) (n : Nat) : State :=
  if s.winInteg n then
    { s with cry := { s.cry with
        paved := s.cry.paved.filter (fun g => decide (g < s.winBase n) || decide (s.winLimit n < g)) } }
  else s

/-- Two windows share an address. -/
def State.winMeets (s : State) (n m : Nat) : Bool :=
  decide (s.winBase n ≤ s.winLimit m) && decide (s.winBase m ≤ s.winLimit n)

/-- Two ranges of bytes, by address and size, share a byte. -/
def rangesMeet (a b : Nat × Nat) : Bool := decide (a.1 < b.1 + b.2) && decide (b.1 < a.1 + a.2)

/-- The bytes of a window. -/
def State.winRange (s : State) (n : Nat) : Nat × Nat := (s.winBase n * 65536, (s.winLimit n + 1 - s.winBase n) * 65536)

/-- The rules of an integrity window and its tag area hold against the other valid windows (R265). -/
def State.integOk (s : State) (n : Nat) : Bool :=
  let others := s.windows.filter (· != n)
  let t := s.tagArea n
  decide ((s.winLimit n + 1) * 65536 ≤ s.memBytes) && others.all (fun m => !(s.winMeets n m))
    && decide (t.1 + t.2 ≤ s.memBytes)
    && (n :: others).all (fun m => !(rangesMeet t (s.winRange m)))
    && others.all (fun m => !(s.winInteg m) || !(rangesMeet t (s.tagArea m)))

/-- Window `n` may be valid. -/
def State.winOk (s : State) (n : Nat) : Bool :=
  decide (s.winBase n ≤ s.winLimit n) && s.ksEnabled (s.winSlot n) && (!(s.winInteg n) || s.integOk n)

/-- A write of CRY_WIN_BASE, CRY_WIN_LIMIT or CRY_WIN_TBASE (R265, R271). -/
def State.winWrite (s : State) (o : Nat) (v : Word) : State :=
  let n := (o - 0x80100) / 16
  let f := o % 16
  if s.winValid n then
    if f = 0 ∧ !(v.getLsbD 31) then (s.unpave n).writeReg o v
    else if (s.writeReg o v).reg o = s.reg o then s else s.cfgRefused
  else
    let s := s.writeReg o v
    if s.winValid n then
      if s.winOk n then s.unpave n else (s.putBit o 31 false).cfgRefused
    else s

/-! ### The command FIFO (R315) -/

/-- The last word of a packet is there. -/
def packetWhole (ws : List Word) : Bool :=
  match ws with
  | _ :: b :: r => decide ((b.toNat % 2 ^ 16 + 3) / 4 ≤ r.length)
  | _ => false

/-- A write of MGT_CMD_FIFO: a reply is owed from the last word of a packet on (R316). -/
def State.cmdPush (s : State) (v : Word) : State :=
  let m := s.mgt
  if m.overflow then s
  else if 128 ≤ m.cmdFifo.length then s.setMgt { m with overflow := true }
  else
    let seen := m.cmdSeen ++ [v]
    let m := { m with cmdFifo := m.cmdFifo ++ [v] }
    if packetWhole seen then s.setMgt { m with cmdSeen := [], owedHost := m.owedHost + 1 }
    else s.setMgt { m with cmdSeen := seen }

/-- Reads that stall when nothing is owed any more end as R316 states. -/
def State.endStalls (s : State) : State :=
  if s.mgt.owedHost = 0 then
    let rs := s.mgt.readers
    forEach (fun r s => (s.setBit rReplyStatus 9).deliver r 0) rs (s.setMgt { s.mgt with readers := [] })
  else s

/-- A write of MGT_CMD_CTRL. -/
def State.cmdFlush (s : State) (v : Word) : State :=
  if v.getLsbD 0 then
    (s.setMgt { s.mgt with
      cmdFifo := [], cmdSeen := [], overflow := false, owedHost := if s.power.replyPath = some .host then 1 else 0 }).endStalls
  else s

/-! ### Counters, interrupts, reservations -/

/-- A write of CNT_VAL_LO (R347). -/
def State.cntLo (s : State) (n : Nat) (v : Word) : State := s.setCnt n { s.cnt n with staged := v }

/-- A write of CNT_VAL_HI (R347). -/
def State.cntHi (s : State) (n : Nat) (v : Word) : State :=
  let c := s.cnt n
  s.setCnt n { c with value := BitVec.ofNat 48 (c.staged.toNat + v.toNat % 2 ^ 16 * 2 ^ 32) }

/-- A write of HOM_RSV_CTRL cancels every reservation (R148). -/
def State.rsvWrite (s : State) (v : Word) : State := (s.dropReservations).writeReg rHomRsv v

/-- A write of PRT_BUDGET: what a limit was before it is lowered still bounds what the port holds (R79, R97). -/
def State.budgetWrite (s : State) (p : Nat) (v : Word) : State :=
  let pool := s.poolMax p
  let slots := s.slotMax p
  let s := s.writeReg (rPrtBudget p) v
  let u := s.port p
  s.setPort p { u with
    poolWas := if s.poolMax p < pool then pool else u.poolWas
    slotWas := if s.slotMax p < slots then slots else u.slotWas }

/-! ### Every write -/

/-- A write to a control space offset (R371 to R376). -/
def State.ctlWrite (s : State) (o : Nat) (v : Word) : State :=
  if 0x11000 ≤ o ∧ o < 0x12000 ∧ o % 0x100 = 0 then s.lnkCtrlWrite ((o - 0x11000) / 0x100) v
  else if o = rHomRsv then s.rsvWrite v
  else if o = rPrtGctl then (s.writeReg o v).noteAllExcess
  else if 0x21000 ≤ o ∧ o < 0x22000 then s.budgetWrite ((o - 0x21000) / 4) v
  else if o = rMaintCmd then s.maintCmdWrite v
  else if o = rTestCtrl then s.testCtrlWrite v {}
  else if o = rPrkCtrl then s.parkSizeWrite v
  else if o = rVacCmd then s.vacCmdWrite v
  else if o = rPrkRelease then s.releaseWrite v
  else if o = rCryCtrl then s.withVotes usesConfig (·.ksEnWrite v)
  else if 0x80100 ≤ o ∧ o < 0x80500 then s.withVotes usesConfig (·.winWrite o v)
  else if o = rStoCtrl ∨ o = rRetireThresh then (s.writeReg o v).dueScan
  else if 0x91000 ≤ o ∧ o < 0x92000 then
    let n := (o - 0x91000) / 0x40
    let f := o % 0x40
    if f = 0 then s.dmaCtrlWrite n v
    else if f = 8 ∨ f = 0xC then s.dmaListWrite n o v
    else if f = 0x14 then s.dmaShadowWrite n v
    else s.writeReg o v
  else if o = rCmdFifo then s.cmdPush v
  else if o = rCmdCtrl then s.cmdFlush v
  else if o = rIntrPend ∨ o = rIntrMask ∨ o = rIntrDmaLo ∨ o = rIntrDmaHi then (s.writeReg o v).driveAlert
  else if 0xC1000 ≤ o ∧ o < 0xC1800 ∧ o % 0x20 = 0x10 then s.cntLo ((o - 0xC1000) / 0x20) v
  else if 0xC1000 ≤ o ∧ o < 0xC1800 ∧ o % 0x20 = 0x14 then s.cntHi ((o - 0xC1000) / 0x20) v
  else s.writeReg o v

/-! ### Meanings -/

/-- RSV_GRANULE_WRITE (R148, R154). -/
def execRsvGranuleWrite (v : Word) (s : State) : Res := (s.ctl (·.rsvWrite v)).done

/-- WINDOW_WRITE (R265, R271). -/
def execWindowWrite (off : BitVec 23) (v : Word) (s : State) : Res := (s.ctl (·.ctlWrite off.toNat v)).done

/-- KS_EN_WRITE (R260). -/
def execKsEnWrite (v : Word) (s : State) : Res := (s.ctl (·.ctlWrite rCryCtrl v)).done

/-- CNT_VAL_LO_WRITE (R347). -/
def execCntValLoWrite (n : Fin 64) (v : Word) (s : State) : Res := (s.ctl (·.cntLo n.val v)).done

/-- CNT_VAL_HI_WRITE (R347). -/
def execCntValHiWrite (n : Fin 64) (v : Word) (s : State) : Res := (s.ctl (·.cntHi n.val v)).done

/-- CMD_FIFO_WRITE (R315). -/
def execCmdFifoWrite (v : Word) (s : State) : Res := (s.ctl (·.cmdPush v)).done

/-- FLUSH (R315). -/
def execFlush (v : Word) (s : State) : Res := (s.ctl (·.cmdFlush v)).done

/-- REPLY_FIFO_READ (R316, R376). -/
def execReplyFifoRead (s : State) : Res :=
  State.done (if s.replyOn then s.wake.replyRead (noQueue, 0, rReplyFifo) else s)

/-- EVT_LO_READ (R320). -/
def execEvtLoRead (s : State) : Res := (s.ctl (·.ctlRead rEvtLo (noQueue, 0, rEvtLo))).done

/-- REGISTER_WRITE (R12, R13, R374): any register. -/
def execRegisterWrite (off : BitVec 23) (v : Word) (s : State) : Res := (s.ctl (·.ctlWrite off.toNat v)).done

end Sys2Proof.Machine
end

