-- ==== Sys2Proof/Machine/Layby.lean ====
section
/-! DEFINITION. Issue of a lay-by head (R83, R86, R88, R89): to its home slice, to its target link stop (R69, R70), or to the
control space; a writeback that a snoop supersedes, and one that is a claim (R121, R122); a conditional store (R149). -/
namespace Sys2Proof.Machine

/-! ### Eligibility -/

/-- An earlier request of the port for the line is not registered yet (R135). -/
def State.olderQueued (s : State) (p : Nat) (e : LbEnt) : Bool :=
  (s.portEnts p).any (fun q => !q.busErr && q.op != opFence && regionOf q.addr == .memory && lineOf q.addr == e.line
      && decide (q.id < e.id))
    || (s.link (p / 64)).held.any (fun h => decide (h.id < e.id) && p / 64 * 64 + h.h.stream.toNat == p
      && h.op != opFence && !(isPostedOp h.op) && regionOf h.h.addr == .memory && lineOf h.h.addr == e.line)

/-- A conditional entry issues with its WR_COND, at the head of its queue (R149). -/
def State.condAtHead (s : State) (p : Nat) (e : LbEnt) : Bool :=
  e.op != opWrCond ||
    match (s.queue (queueOf p e.tc.toNat)).ents with
    | q :: _ => q.id == e.id
    | [] => false

/-- A WR_COND waits for the earlier entries of its port for its line (R92). -/
def State.condAlone (s : State) (p : Nat) (e : LbEnt) : Bool := e.op != opWrCond || (s.layBefore p e.line e.id).isEmpty

/-- A memory-region head that competes for its slice (R79, R89). -/
def State.layEligible (s : State) (p : Nat) (e : LbEnt) : Bool :=
  e.dest == .mem && !(s.olderQueued p e) && s.condAtHead p e && s.condAlone p e && s.slotRoom p
    && !((s.poolFree (sliceOf e.line) .write).isEmpty)

/-- Streams of a link whose heads compete for a slice. -/
def State.drainCands (s : State) (l slice : Nat) : List (Nat × Nat) :=
  s.portsSeen.filterMap (fun p => match s.layHead p with
    | some e => if p / 64 == l && sliceOf e.line == slice && s.layEligible p e then some (p % 64, 0) else none
    | none => none)

/-- Links whose heads compete for a slice's write inlet. -/
def State.drainLinks (s : State) (slice : Nat) : List (Nat × Nat) :=
  (links16.filter (fun l => !((s.drainCands l slice).isEmpty))).map (fun l => (l, 0))

/-! ### The codes of the entry (R86) -/

/-- The log entry that an error of the entry's codes makes when the entry issues. -/
def State.layLog (s : State) (p : Nat) (e : LbEnt) : State :=
  match e.ecc with
  | .clean => s
  | .corr => s.logEvent 2 0x80 .c (some p) e.addr.toNat
  | .uncorr =>
    if e.op == opWrCond then s.logEvent 2 0x84 .p (some p) e.addr.toNat
    else if e.dest == .mem then s.logEvent 2 0x81 .p (some p) e.addr.toNat
    else s.logEvent 2 0x82 .p (some p) e.addr.toNat

/-- The head of the port's lay-by is being issued. -/
def Port.issueHead (u : Port) (e : LbEnt) : Port :=
  { u with layby := u.layby.map (fun x => if x = e then { x with issuing := true } else x) }

def State.layTake (s : State) (p : Nat) (e : LbEnt) : State := (s.setPort p ((s.port p).issueHead e)).layLog p e

def State.layRelease (s : State) (p : Nat) (e : LbEnt) : State := s.setPort p ((s.port p).release e.id)

/-! ### Memory region -/

/-- The slot of a lay-by entry. -/
def laySlot (p : Nat) (e : LbEnt) : Slot :=
  let kind := kindOf e.op
  { Slot.blank kind (.port p e.tc.toNat) e.line with
    ansId := e.id, tag := e.tag, priv := e.priv, addr := e.addr, size := e.size, data := e.data, mask := e.mask
    badData := e.ecc == .uncorr }

/-- Placement work that leaves the line lent. -/
def Act.lends : Act → Bool
  | .alloc st _ _ _ => st.lent
  | .writeFrame st _ => st.lent
  | .allocWait st _ => st.lent
  | _ => false

/-- The line is lent, in its home copy or by a grant whose placement is still under way. -/
def State.lentNow (s : State) (line : Nat) : Bool :=
  (s.homeCopy line).st.lent || s.slotList.any (fun e => e.2.line == line && e.2.todo.any Act.lends)

/-- A WB_FULL is ordered (R115, R121, R122): superseded, a claim, or written; its lookup checks the tags of the set (R179) and
sets `ref` on a hit (R166). -/
def State.issueWb (s : State) (k p : Nat) (e : LbEnt) : State :=
  let l := p / 64
  let t := laySlot p e
  if s.home.snooped.contains (l, e.line) then
    (((s.layRelease p e).count 0x10 t.attr).count 0x1A t.attr).wbCmp p e.tc.toNat s.order e.tag stOk
  else if !(s.lentNow e.line) || !(s.inPresence (regionNo e.line) l) then
    let s := s.layRelease p e
    if (s.link l).state.alive then s.claim l 0 e.line else s
  else
    let s := s.orderSlot k t
    match s.slot k with
    | some t =>
      let o := s.newOrder
      let t := { t with phase := .place, granted := true, putNo := o.1 }
      let s := tagSweep (wpSet e.line) 16 o.2
      if s.saf.safe == .stop then s else
      let s := match s.wayOf e.line with
        | some w => s.wayHit w
        | none => s
      let s := ((s.setSlot k (some t)).layRelease p e).cancelWritten t |>.vacWrite e.line
      let s := s.wbCmp p e.tc.toNat t.order e.tag stOk
      (if t.badData then (s.cancelLine e.line).putData k t .hp 0 else s.putData k t .hd e.data).settle
    | none => s

/-- A conditional entry that its codes give up (R149): the WR_COND is answered BUS_ERR, the reservation is consumed. -/
def State.condBad (s : State) (p : Nat) (e : LbEnt) : State :=
  let q := queueOf p e.tc.toNat
  let s := (s.popHead q).layRelease p e
  (s.setPort p { s.port p with rsv := none }).answer q e.id 0 (badRes stBusErr)

/-- A memory-region head enters its slice: it must win its link drain arbiter and the slice's write inlet (R83). -/
def State.issueMem (s : State) (p : Nat) (e : LbEnt) : State :=
  let l := p / 64
  let slice := sliceOf e.line
  let a := 300 + l * 8 + slice
  if s.layEligible p e && s.wins a 64 (s.drainCands l slice) (p % 64, 0)
      && s.wins (500 + slice) 16 (s.drainLinks slice) (l, 0) then
    let s := (s.granted a 64 (p % 64)).granted (500 + slice) 16 l
    let s := s.guardVotes usesHome
    if s.saf.safe == .stop then s else
    let s := s.layTake p e
    if e.op == opWrCond && e.ecc == .uncorr then s.condBad p e
    else match s.takeSlot slice .write with
      | none => s
      | some r =>
        if e.op == opWbFull then r.2.issueWb r.1 p e
        else
          let s := if e.op == opWrCond then (r.2.popHead (queueOf p e.tc.toNat)).count 0x0F (e.attr p) else r.2
          (s.register r.1 (laySlot p e)).settle
  else s

/-! ### Device region and control space -/

/-- A device-type entry that its codes give up is discarded, and the port's loss flag is set (R86, R145). -/
def State.layDiscard (s : State) (p : Nat) (e : LbEnt) : State :=
  let u := ((s.port p).issueHead e).release e.id
  (s.setPort p u.lose).layLog p e

/-- The data slots that a write carries on to its target (R57). -/
def LbEnt.slots (e : LbEnt) : List MsgSlot :=
  if e.op == opWrFull then lineSlots e.data 0 8
  else lineSlots (mergeLine 0 e.data e.mask) (offOf e.addr / 16) (chunkCount (offOf e.addr) e.size)

/-- A device-region head is passed to its target link stop (R69, R70, R89). -/
def State.issueDev (s : State) (p l : Nat) (e : LbEnt) : State :=
  if !(s.wins (600 + l) 1024 (s.targetCands l) (p, e.tc.toNat)) then s
  else
    let g := s.granted (600 + l) 1024 p
    if e.ecc == .uncorr then g.layDiscard p e
    else ((g.layTake p e).passTarget l p e.tc.toNat e.op e.priv e.id e.addr e.size e.slots).getD s

/-- A control space head is applied (R89, R375). -/
def State.issueCtl (s : State) (p : Nat) (e : LbEnt) : State :=
  if !(s.wins 700 1024 s.controlCands (p, e.tc.toNat)) then s
  else
    let s := s.granted 700 1024 p
    if e.ecc == .uncorr then s.layDiscard p e
    else
      let s := (s.layTake p e).layRelease p e
      s.ctlWrite (ctlOffset e.addr) (BitVec.ofNat 32 (lineNat e.data (offOf e.addr) 4))

/-- The head of a port's lay-by issues. -/
def State.layIssue (s : State) (p : Nat) : State :=
  if !s.live then s
  else match s.layHead p with
    | none => s
    | some e =>
      match e.dest with
      | .mem => s.issueMem p e
      | .peer l => s.issueDev p l e
      | .control => s.issueCtl p e

/-- LAYBY_ISSUE (R83, R85, R86, R88, R89, R121, R122, R135, R149). -/
def execLaybyIssue (port : Fin 1024) (s : State) : Res :=
  (forEach (fun tc t => t.refilled s (queueOf port.val tc)) (List.range 8) (s.layIssue port.val)).done

end Sys2Proof.Machine
end

