-- ==== Sys2Proof/Machine/Clock.lean ====
section
/-! DEFINITION. What one step without a command does (log entry 2): one fc of a clocked device passes, with the events that
are counted in every fc (R343, R344); a power-loss drain runs to its end; any other device that is not clocked stays as it
is. -/
namespace Sys2Proof.Machine

/-- Fc in a tick (R31). -/
def fcPerTick : Nat := 1536000

/-- A message waits for tolls on the link. -/
def Link.tollWait (k : Link) : Bool := k.state == .active && k.txWait.any (fun m => decide (k.txAvail.get m.cls < m.slots))

/-- A queue head is held because its slot pool is empty. -/
def State.poolHeld (s : State) (e : QEnt) : Bool :=
  regionOf e.addr == .memory && e.op != opFence && !e.busErr
    && (s.poolFree (sliceOf (lineOf e.addr)) (poolOf e.op)).isEmpty

/-- The events of one fc of the links. -/
def State.fcLinks (s : State) : State :=
  forEach (fun (e : Nat × Link) s =>
    let s := if e.2.tollWait then s.count 0x06 { link := some e.1 } else s
    if e.2.state.asleep then s.count 0x07 { link := some e.1 } else s) s.links s

/-- The events of one fc of the queues. -/
def State.fcQueues (s : State) : State :=
  forEach (fun (e : Nat × QEnt) s =>
    if s.poolHeld e.2 then s.count 0x13 { req := some (e.1 / 8, e.2.priv.toNat, e.1 % 8) } else s) s.heads s

/-- The events of one fc of the governor (R361). -/
def State.fcGovernor (s : State) : State := if s.power.level != 0 || s.power.guard then s.count 0x3A {} else s

/-- One fc passes, up to the last fc of the tick, whose end is the command TICK_BOUNDARY. -/
def State.fcPass (s : State) : State :=
  if s.fc + 1 < fcPerTick then (((({ s with fc := s.fc + 1 }).count 0x00 {}).fcLinks).fcQueues).fcGovernor else s

/-- A step without a command. -/
def idleFc (s : State) : State :=
  if s.power.boot == .powerDrain then s.drainOver.norm
  else if s.power.boot.clocked then s.fcPass.norm
  else s

end Sys2Proof.Machine
end

