-- ==== Sys2Proof/Machine/I3c.lean ====
section
/-! DEFINITION. The I3C target (R318, R319): private writes and reads, the common command codes it supports, and HDR traffic,
which it ignores from entry to exit. -/
namespace Sys2Proof.Machine

/-- The I3C path works in every power state but Off, from boot step 1 on (R318). -/
def Boot.i3cUp : Boot → Bool
  | .reset => false | .off => false | .powerDrain => false | _ => true

/-- SDR traffic for the target is handled now. -/
def State.i3cOn (s : State) : Bool := s.power.boot.i3cUp && !s.mgt.i3c.hdr

/-- What the target does with a transfer that it handles. -/
def State.onI3c (s : State) (f : State → State) : State := if s.i3cOn then f s else s

def State.setI3c (s : State) (c : I3c) : State := s.setMgt { s.mgt with i3c := c }

/-- A final reply of the I3C path is owed (R319). -/
def State.i3cOwed (s : State) : Bool := !s.mgt.i3cp.packets.isEmpty || s.power.replyPath == some .i3c

/-- The bytes of a private write as a packet: at most 256, and whether it is answered BAD_LENGTH (R319). -/
def packetOf (b : List (BitVec 8)) : List (BitVec 8) × Bool :=
  let c := b.take 256
  (c, decide (256 < b.length) || decide (c.length < 8) || decide (c.length < 8 + leNat (c.map BitVec.toNat) 4 2))

/-- A private write: a wake cause (R354, R357), and a command unless a reply is owed or unread. -/
def State.i3cWrite (s : State) (b : List (BitVec 8)) : State :=
  let s := (s.wake).standbyWake .i3c
  let u := s.mgt.i3cp
  if s.i3cOwed || u.reply.isSome || s.shutOver then s.emit .i3cNack
  else if b.isEmpty then s.emit .i3cAck
  else
    let p := packetOf b
    let s := s.setPath .i3c { u with packets := u.packets ++ [p.1], badLen := u.badLen ++ [p.2] }
    if b.length ≤ 256 then s.emit .i3cAck else (s.emit .i3cAck).emit .i3cNack

/-- The header of the command whose final reply the I3C path owes. -/
def State.i3cOwedHead (s : State) : Nat × Nat :=
  match s.mgt.late, s.mgt.i3cp.packets with
  | some w, [] => (w.opcode, w.seq)
  | _, b :: _ => (leNat (b.map BitVec.toNat) 0 2, leNat (b.map BitVec.toNat) 2 2)
  | none, [] => (0, 0)

/-- A private read: the reply, a PENDING reply, or a NACK. -/
def State.i3cRead (s : State) : State :=
  let u := s.mgt.i3cp
  match u.reply with
  | some b =>
    let s := if s.power.replyOut == some .i3c then { s with power := { s.power with replyOut := none } } else s
    (s.setPath .i3c { u with reply := none }).emit (.i3cBytes b)
  | none =>
    if s.i3cOwed then
      let h := s.i3cOwedHead
      s.emit (.i3cBytes ((headBytes h.1 h.2 0 sPending).map (BitVec.ofNat 8)))
    else s.emit .i3cNack

/-- Bytes of a number, most significant first. -/
def bigBytes (n v : Nat) : List (BitVec 8) := (natBytes n v).reverse.map (BitVec.ofNat 8)

/-- BCR, DCR and the maximum lengths (R318). -/
def i3cBcr : BitVec 8 := 0x06
def i3cDcr : BitVec 8 := 0x00
def i3cMaxLen : Nat := 256

/-- The static address (R318, R368). -/
def State.i3cStatic (s : State) : BitVec 7 := BitVec.ofNat 7 (0x4C + s.power.straps.i3ca.toNat)

/-- ENTDAA: a target without a dynamic address sends its identity and takes the address. -/
def State.i3cAssign (s : State) (a : BitVec 7) : State :=
  if s.mgt.i3c.dynAddr.isSome then s
  else (s.setI3c { s.mgt.i3c with dynAddr := some a }).emit
    (.i3cBytes (bigBytes 6 Config.provisionalId.toNat ++ [i3cBcr, i3cDcr]))

/-! ### Meanings -/

/-- I3C_PRIVATE_WRITE (R319). -/
def execI3cPrivateWrite (bytes : List (BitVec 8)) (s : State) : Res := (s.onI3c (·.i3cWrite bytes)).done

/-- I3C_PRIVATE_READ (R319). -/
def execI3cPrivateRead (s : State) : Res := (s.onI3c State.i3cRead).done

/-- I3C_HDR_ENTRY (R318). -/
def execI3cHdrEntry (s : State) : Res := (s.onI3c (fun s => s.setI3c { s.mgt.i3c with hdr := true })).done

/-- I3C_HDR_EXIT (R318). -/
def execI3cHdrExit (s : State) : Res :=
  State.done (if s.power.boot.i3cUp then s.setI3c { s.mgt.i3c with hdr := false } else s)

/-- ENEC (R318): bit 0 enables IBIs. -/
def execEnec (events : BitVec 8) (s : State) : Res :=
  (s.onI3c (fun s => if events.getLsbD 0 then s.setI3c { s.mgt.i3c with ibiOn := true } else s)).done

/-- DISEC (R318). -/
def execDisec (events : BitVec 8) (s : State) : Res :=
  (s.onI3c (fun s => if events.getLsbD 0 then s.setI3c { s.mgt.i3c with ibiOn := false } else s)).done

/-- RSTDAA (R318). -/
def execRstdaa (s : State) : Res := (s.onI3c (fun s => s.setI3c { s.mgt.i3c with dynAddr := none })).done

/-- ENTDAA (R318). -/
def execEntdaa (addr : BitVec 7) (s : State) : Res := (s.onI3c (·.i3cAssign addr)).done

/-- SETDASA (R318): for the static address, while no dynamic address is held. -/
def execSetdasa (stat : BitVec 7) (addr : BitVec 7) (s : State) : Res :=
  (s.onI3c (fun s =>
    if stat = s.i3cStatic ∧ s.mgt.i3c.dynAddr = none then
      (s.setI3c { s.mgt.i3c with dynAddr := some addr }).emit .i3cAck
    else s.emit .i3cNack)).done

/-- SETNEWDA (R318): a new address in place of the one held. -/
def execSetnewda (addr : BitVec 7) (s : State) : Res :=
  (s.onI3c (fun s =>
    if s.mgt.i3c.dynAddr.isSome then (s.setI3c { s.mgt.i3c with dynAddr := some addr }).emit .i3cAck
    else s.emit .i3cNack)).done

/-- GETPID (R318). -/
def execGetpid (s : State) : Res := (s.onI3c (·.emit (.i3cBytes (bigBytes 6 Config.provisionalId.toNat)))).done

/-- GETBCR (R318). -/
def execGetbcr (s : State) : Res := (s.onI3c (·.emit (.i3cBytes [i3cBcr]))).done

/-- GETDCR (R318). -/
def execGetdcr (s : State) : Res := (s.onI3c (·.emit (.i3cBytes [i3cDcr]))).done

/-- GETSTATUS (R318). -/
def execGetstatus (s : State) : Res :=
  (s.onI3c (fun s =>
    ({ s with free := s.free + 1 }).emit (.i3cBytes (bigBytes 2 (Config.i3cStatusWord s.free).toNat)))).done

/-- GETMWL (R318). -/
def execGetmwl (s : State) : Res := (s.onI3c (·.emit (.i3cBytes (bigBytes 2 i3cMaxLen)))).done

/-- GETMRL (R318); a target with an IBI payload adds its largest size, which the manual does not give. -/
def execGetmrl (s : State) : Res :=
  (s.onI3c (fun s =>
    let f := s.fresh
    f.2.emit (.i3cBytes (bigBytes 2 i3cMaxLen ++ [BitVec.ofNat 8 f.1])))).done

/-- UNSUPPORTED_CCC (R318). -/
def execUnsupportedCcc (direct : Bool) (s : State) : Res := (s.onI3c (fun s => if direct then s.emit .i3cNack else s)).done

end Sys2Proof.Machine
end

