-- ==== Sys2Proof/Machine/Dispatch.lean ====
section
/-! DEFINITION. What each command does: one arm per constructor of Instr, in the order of the opcode table. -/
namespace Sys2Proof.Machine

def exec (i : Instr) (s : State) : Host.Outcome State Fault Refusal :=
  match i with
  | .porstNAssert => Sys2Proof.Machine.execPorstNAssert s
  | .porstNRelease straps train => Sys2Proof.Machine.execPorstNRelease straps train s
  | .keyWaitTimeout => Sys2Proof.Machine.execKeyWaitTimeout s
  | .warmNFall => Sys2Proof.Machine.execWarmNFall s
  | .warmDrainEnd train => Sys2Proof.Machine.execWarmDrainEnd train s
  | .vmainSenseFall errs => Sys2Proof.Machine.execVmainSenseFall errs s
  | .vbakLow => Sys2Proof.Machine.execVbakLow s
  | .vmainSenseRise train => Sys2Proof.Machine.execVmainSenseRise train s
  | .refclkMissing => Sys2Proof.Machine.execRefclkMissing s
  | .overTemperatureStop => Sys2Proof.Machine.execOverTemperatureStop s
  | .tickBoundary t => Sys2Proof.Machine.execTickBoundary t s
  | .scheduledWorkDone => Sys2Proof.Machine.execScheduledWorkDone s
  | .tickOverrun => Sys2Proof.Machine.execTickOverrun s
  | .wearPersist => Sys2Proof.Machine.execWearPersist s
  | .shoulderDrainDone => Sys2Proof.Machine.execShoulderDrainDone s
  | .guardEngage => Sys2Proof.Machine.execGuardEngage s
  | .idleEntry => Sys2Proof.Machine.execIdleEntry s
  | .idleExit => Sys2Proof.Machine.execIdleExit s
  | .standbyWake w => Sys2Proof.Machine.execStandbyWake w s
  | .standbyReplyWaitEnd => Sys2Proof.Machine.execStandbyReplyWaitEnd s
  | .linkDetectPoll l lanes => Sys2Proof.Machine.execLinkDetectPoll l lanes s
  | .absentTimeout l => Sys2Proof.Machine.execAbsentTimeout l s
  | .syncComplete l laneOk => Sys2Proof.Machine.execSyncComplete l laneOk s
  | .syncTimeout l => Sys2Proof.Machine.execSyncTimeout l s
  | .paramTimeout l => Sys2Proof.Machine.execParamTimeout l s
  | .eqTimeout l => Sys2Proof.Machine.execEqTimeout l s
  | .retrainTimeout l => Sys2Proof.Machine.execRetrainTimeout l s
  | .tsSync l => Sys2Proof.Machine.execTsSync l s
  | .tsParam l p => Sys2Proof.Machine.execTsParam l p s
  | .tsEq l => Sys2Proof.Machine.execTsEq l s
  | .tsDone l => Sys2Proof.Machine.execTsDone l s
  | .blockLockLoss l => Sys2Proof.Machine.execBlockLockLoss l s
  | .msgFlit l f => Sys2Proof.Machine.execMsgFlit l f s
  | .idleFlit l f => Sys2Proof.Machine.execIdleFlit l f s
  | .toll l f => Sys2Proof.Machine.execToll l f s
  | .nak l f => Sys2Proof.Machine.execNak l f s
  | .pwrReq l f => Sys2Proof.Machine.execPwrReq l f s
  | .pwrAck l f => Sys2Proof.Machine.execPwrAck l f s
  | .pwrNak l f => Sys2Proof.Machine.execPwrNak l f s
  | .nakRepeatTimeout l => Sys2Proof.Machine.execNakRepeatTimeout l s
  | .replayTimeout l => Sys2Proof.Machine.execReplayTimeout l s
  | .tollReturnTimeout l => Sys2Proof.Machine.execTollReturnTimeout l s
  | .lightIdleTimeout l => Sys2Proof.Machine.execLightIdleTimeout l s
  | .deepIdleTimeout l => Sys2Proof.Machine.execDeepIdleTimeout l s
  | .linkWakeReceived l => Sys2Proof.Machine.execLinkWakeReceived l s
  | .linkWakeDone l => Sys2Proof.Machine.execLinkWakeDone l s
  | .ringInsertReserve stop => Sys2Proof.Machine.execRingInsertReserve stop s
  | .presenceAssert l => Sys2Proof.Machine.execPresenceAssert l s
  | .presenceDeassert l => Sys2Proof.Machine.execPresenceDeassert l s
  | .surpriseDetach l => Sys2Proof.Machine.execSurpriseDetach l s
  | .detachReq l => Sys2Proof.Machine.execDetachReq l s
  | .detachComplete l => Sys2Proof.Machine.execDetachComplete l s
  | .rdShared l h => Sys2Proof.Machine.execRdShared l h s
  | .rdUnique l h => Sys2Proof.Machine.execRdUnique l h s
  | .rdOnce l h => Sys2Proof.Machine.execRdOnce l h s
  | .upgrade l h => Sys2Proof.Machine.execUpgrade l h s
  | .wbFull l h slots => Sys2Proof.Machine.execWbFull l h slots s
  | .evictClean l h => Sys2Proof.Machine.execEvictClean l h s
  | .wrFull l h slots => Sys2Proof.Machine.execWrFull l h slots s
  | .wrPtl l h slots => Sys2Proof.Machine.execWrPtl l h slots s
  | .atomic l h slots => Sys2Proof.Machine.execAtomic l h slots s
  | .rdRsv l h => Sys2Proof.Machine.execRdRsv l h s
  | .wrCond l h slots => Sys2Proof.Machine.execWrCond l h slots s
  | .fence l h => Sys2Proof.Machine.execFence l h s
  | .enqueueRetry l => Sys2Proof.Machine.execEnqueueRetry l s
  | .cmp l r => Sys2Proof.Machine.execCmp l r s
  | .data l r slots => Sys2Proof.Machine.execData l r slots s
  | .snpAck l r => Sys2Proof.Machine.execSnpAck l r s
  | .snpData l r slots => Sys2Proof.Machine.execSnpData l r slots s
  | .queueDispatch port tc => Sys2Proof.Machine.execQueueDispatch port tc s
  | .laybyIssue port => Sys2Proof.Machine.execLaybyIssue port s
  | .waitChainAdvance line => Sys2Proof.Machine.execWaitChainAdvance line s
  | .filterRetry slice set => Sys2Proof.Machine.execFilterRetry slice set s
  | .snoopTimeout slot l => Sys2Proof.Machine.execSnoopTimeout slot l s
  | .deadRegionRecovery slice => Sys2Proof.Machine.execDeadRegionRecovery slice s
  | .frameReadDone slot e => Sys2Proof.Machine.execFrameReadDone slot e s
  | .frameWriteDone slot => Sys2Proof.Machine.execFrameWriteDone slot s
  | .missTokenTake port => Sys2Proof.Machine.execMissTokenTake port s
  | .dramReadReturn slot d => Sys2Proof.Machine.execDramReadReturn slot d s
  | .dramWriteAck slot => Sys2Proof.Machine.execDramWriteAck slot s
  | .answerSend port tc => Sys2Proof.Machine.execAnswerSend port tc s
  | .fenceComplete port => Sys2Proof.Machine.execFenceComplete port s
  | .targetTimeout l tag => Sys2Proof.Machine.execTargetTimeout l tag s
  | .prefetchIssue port => Sys2Proof.Machine.execPrefetchIssue port s
  | .prefetchExpire port => Sys2Proof.Machine.execPrefetchExpire port s
  | .ageSweepStart errs => Sys2Proof.Machine.execAgeSweepStart errs s
  | .waypointWriteback parityErr => Sys2Proof.Machine.execWaypointWriteback parityErr s
  | .correctionRewrite e verify => Sys2Proof.Machine.execCorrectionRewrite e verify s
  | .laneShiftMove die seg e => Sys2Proof.Machine.execLaneShiftMove die seg e s
  | .retirementCopy die e => Sys2Proof.Machine.execRetirementCopy die e s
  | .resurfacingVisit die e => Sys2Proof.Machine.execResurfacingVisit die e s
  | .refreshDue ch bank use => Sys2Proof.Machine.execRefreshDue ch bank use s
  | .rfmDue ch bank busy => Sys2Proof.Machine.execRfmDue ch bank busy s
  | .writeAgeSwitch ch => Sys2Proof.Machine.execWriteAgeSwitch ch s
  | .rowIdleClose ch bank => Sys2Proof.Machine.execRowIdleClose ch bank s
  | .powerDownEntry ch => Sys2Proof.Machine.execPowerDownEntry ch s
  | .selfRefreshEntry ch => Sys2Proof.Machine.execSelfRefreshEntry ch s
  | .channelRetrain ch => Sys2Proof.Machine.execChannelRetrain ch s
  | .channelRetrainDone ch => Sys2Proof.Machine.execChannelRetrainDone ch s
  | .paveDone granule => Sys2Proof.Machine.execPaveDone granule s
  | .parkLineMove slot line e d => Sys2Proof.Machine.execParkLineMove slot line e d s
  | .unparkLineMove slot line e => Sys2Proof.Machine.execUnparkLineMove slot line e s
  | .resizeDone => Sys2Proof.Machine.execResizeDone s
  | .dmaDescriptorFetch ch => Sys2Proof.Machine.execDmaDescriptorFetch ch s
  | .nop ch => Sys2Proof.Machine.execNop ch s
  | .link ch => Sys2Proof.Machine.execLink ch s
  | .copy ch => Sys2Proof.Machine.execCopy ch s
  | .fill ch => Sys2Proof.Machine.execFill ch s
  | .pave ch => Sys2Proof.Machine.execPave ch s
  | .park ch => Sys2Proof.Machine.execPark ch s
  | .unpark ch => Sys2Proof.Machine.execUnpark ch s
  | .clean ch => Sys2Proof.Machine.execClean ch s
  | .inval ch => Sys2Proof.Machine.execInval ch s
  | .cleanInval ch => Sys2Proof.Machine.execCleanInval ch s
  | .dmaReadbackDone ch => Sys2Proof.Machine.execDmaReadbackDone ch s
  | .dmaRangeDone ch => Sys2Proof.Machine.execDmaRangeDone ch s
  | .dmaStopComplete ch => Sys2Proof.Machine.execDmaStopComplete ch s
  | .dmaEnable ch v => Sys2Proof.Machine.execDmaEnable ch v s
  | .dmaDisable ch v => Sys2Proof.Machine.execDmaDisable ch v s
  | .dmaShadowArm ch v => Sys2Proof.Machine.execDmaShadowArm ch v s
  | .quarRelease l v => Sys2Proof.Machine.execQuarRelease l v s
  | .retrain l v => Sys2Proof.Machine.execRetrain l v s
  | .linkEnable l v => Sys2Proof.Machine.execLinkEnable l v s
  | .linkDisable l v => Sys2Proof.Machine.execLinkDisable l v s
  | .maintClean v => Sys2Proof.Machine.execMaintClean v s
  | .maintInvalidate v => Sys2Proof.Machine.execMaintInvalidate v s
  | .maintCleanInvalidate v => Sys2Proof.Machine.execMaintCleanInvalidate v s
  | .lockFill v => Sys2Proof.Machine.execLockFill v s
  | .unlockByAddress v => Sys2Proof.Machine.execUnlockByAddress v s
  | .wayWriteBack v => Sys2Proof.Machine.execWayWriteBack v s
  | .wayEvict v => Sys2Proof.Machine.execWayEvict v s
  | .wayUnlock v => Sys2Proof.Machine.execWayUnlock v s
  | .splitWrite v => Sys2Proof.Machine.execSplitWrite v s
  | .testRead v e => Sys2Proof.Machine.execTestRead v e s
  | .parkSizeWrite v => Sys2Proof.Machine.execParkSizeWrite v s
  | .vacancyDeclare v => Sys2Proof.Machine.execVacancyDeclare v s
  | .vacancyWithdraw v => Sys2Proof.Machine.execVacancyWithdraw v s
  | .slotRelease v => Sys2Proof.Machine.execSlotRelease v s
  | .rsvGranuleWrite v => Sys2Proof.Machine.execRsvGranuleWrite v s
  | .windowWrite off v => Sys2Proof.Machine.execWindowWrite off v s
  | .ksEnWrite v => Sys2Proof.Machine.execKsEnWrite v s
  | .cntValLoWrite n v => Sys2Proof.Machine.execCntValLoWrite n v s
  | .cntValHiWrite n v => Sys2Proof.Machine.execCntValHiWrite n v s
  | .cmdFifoWrite v => Sys2Proof.Machine.execCmdFifoWrite v s
  | .flush v => Sys2Proof.Machine.execFlush v s
  | .replyFifoRead => Sys2Proof.Machine.execReplyFifoRead s
  | .evtLoRead => Sys2Proof.Machine.execEvtLoRead s
  | .registerWrite off v => Sys2Proof.Machine.execRegisterWrite off v s
  | .pendingReply p => Sys2Proof.Machine.execPendingReply p s
  | .sessionIdleClose p => Sys2Proof.Machine.execSessionIdleClose p s
  | .tollgateLockoutEnd p => Sys2Proof.Machine.execTollgateLockoutEnd p s
  | .identify p => Sys2Proof.Machine.execIdentify p s
  | .getVersions p => Sys2Proof.Machine.execGetVersions p s
  | .getStatus p => Sys2Proof.Machine.execGetStatus p s
  | .echo p => Sys2Proof.Machine.execEcho p s
  | .tollgateOpen p => Sys2Proof.Machine.execTollgateOpen p s
  | .tollgateAuth p => Sys2Proof.Machine.execTollgateAuth p s
  | .tollgateClose p => Sys2Proof.Machine.execTollgateClose p s
  | .tollgateProvision p => Sys2Proof.Machine.execTollgateProvision p s
  | .sessionStatus p => Sys2Proof.Machine.execSessionStatus p s
  | .telemRead p => Sys2Proof.Machine.execTelemRead p s
  | .logRead p => Sys2Proof.Machine.execLogRead p s
  | .logClear p => Sys2Proof.Machine.execLogClear p s
  | .fwUpdateBegin p => Sys2Proof.Machine.execFwUpdateBegin p s
  | .fwUpdateData p => Sys2Proof.Machine.execFwUpdateData p s
  | .fwUpdateCommit p => Sys2Proof.Machine.execFwUpdateCommit p s
  | .fwSlotSelect p => Sys2Proof.Machine.execFwSlotSelect p s
  | .keyLoad p => Sys2Proof.Machine.execKeyLoad p s
  | .keyUnload p => Sys2Proof.Machine.execKeyUnload p s
  | .keyReady p => Sys2Proof.Machine.execKeyReady p s
  | .calFactoryRead p => Sys2Proof.Machine.execCalFactoryRead p s
  | .calTrimRead p => Sys2Proof.Machine.execCalTrimRead p s
  | .calTrimWrite p => Sys2Proof.Machine.execCalTrimWrite p s
  | .softReset p => Sys2Proof.Machine.execSoftReset p s
  | .shutdown p => Sys2Proof.Machine.execShutdown p s
  | .standbyEnter p => Sys2Proof.Machine.execStandbyEnter p s
  | .governorSet p => Sys2Proof.Machine.execGovernorSet p s
  | .governorGet p => Sys2Proof.Machine.execGovernorGet p s
  | .wearRead p => Sys2Proof.Machine.execWearRead p s
  | .parkMapRead p => Sys2Proof.Machine.execParkMapRead p s
  | .selftestStatus p => Sys2Proof.Machine.execSelftestStatus p s
  | .eventDrain p => Sys2Proof.Machine.execEventDrain p s
  | .i3cPrivateWrite bytes => Sys2Proof.Machine.execI3cPrivateWrite bytes s
  | .i3cPrivateRead => Sys2Proof.Machine.execI3cPrivateRead s
  | .i3cHdrEntry => Sys2Proof.Machine.execI3cHdrEntry s
  | .enec events => Sys2Proof.Machine.execEnec events s
  | .disec events => Sys2Proof.Machine.execDisec events s
  | .rstdaa => Sys2Proof.Machine.execRstdaa s
  | .entdaa addr => Sys2Proof.Machine.execEntdaa addr s
  | .setdasa stat addr => Sys2Proof.Machine.execSetdasa stat addr s
  | .setnewda addr => Sys2Proof.Machine.execSetnewda addr s
  | .getpid => Sys2Proof.Machine.execGetpid s
  | .getbcr => Sys2Proof.Machine.execGetbcr s
  | .getdcr => Sys2Proof.Machine.execGetdcr s
  | .getstatus => Sys2Proof.Machine.execGetstatus s
  | .getmwl => Sys2Proof.Machine.execGetmwl s
  | .getmrl => Sys2Proof.Machine.execGetmrl s
  | .unsupportedCcc direct => Sys2Proof.Machine.execUnsupportedCcc direct s
  | .vaonFall => Sys2Proof.Machine.execVaonFall s
  | .vbakRise => Sys2Proof.Machine.execVbakRise s
  | .i3cHdrExit => Sys2Proof.Machine.execI3cHdrExit s
  | .storeSensePowerDown die => Sys2Proof.Machine.execStoreSensePowerDown die s
  | .signpostReservedOpcode p => Sys2Proof.Machine.execSignpostReservedOpcode p s

end Sys2Proof.Machine
end

