-- ==== Sys2Proof/Safety.lean ====
section
/-! DEFINITION. What counts as a sound state: the canonical form of the tables, and the bounds the manual gives its
counts and lists. -/
namespace Sys2Proof.Machine

/-- Every table of the state is in canonical form; `txHalf` lasts no longer than the command. -/
def State.tablesWf (s : State) : Bool :=
  twf csrInit s.csr && twf linkDef s.links && twf portDef s.ports && twf queueDef s.queues && twf zeroDef s.arbs
    && twf noneDef s.home.slots && twf noneDef s.home.filter && twf listDef s.home.chains && twf wayDef s.wp.ways
    && twf zeroDef s.wp.diePf && twf frameDef s.sto.frames && twf dieDef s.sto.dies && twf pslotDef s.prk.slots
    && twf csrInit s.prk.saved && twf noneDef s.prk.poisonSaved && twf chanDef s.mem.chans
    && twf noneDef s.mem.poison && twf noneDef s.mem.array && twf zeroDef s.mem.losses
    && twf noneDef s.cry.keys && twf listDef s.cry.tagbuf
    && twf dmaDef s.dma && twf wordDef s.mgt.telem && twf intDef s.mgt.trim && twf cntDef s.cnts && s.txHalf.isEmpty

/-! ### Conditions that statements name -/

/-- Link `l` can take in a request with `n` data slots: it is ACTIVE and not detaching, the stream is in use, the tag is free,
no earlier request is held on any link (R80, R81), its receive buffer has room (R54, R74), the voted fields of the enqueue checks hold (R335),
and the device runs in Normal. -/
def State.canEnter (s : State) (l : Nat) (h : Req) (n : Nat) : Bool :=
  let k := s.link l
  k.state == .active && !k.detaching && decide (h.stream.toNat ≤ k.streamCntM1) && !(k.reqTags.contains h.tag.toNat)
    && links16.all (fun j => (s.link j).held.isEmpty) && decide (k.rxHeld.req + k.rxFreed.req + 1 + n ≤ 480) && s.saf.safe == .normal
    && s.power.boot == .run && s.votesOk (s.votedUsed usesDomains)

/-- Pool entries are free for `n` more entries of the port (R78, R79). -/
def State.poolRoom (s : State) (p n : Nat) : Bool :=
  decide ((s.portEnts p).length + n ≤ s.poolMax p) && decide (s.sharedHeld + n ≤ 8192)

/-- Lay-by entries are free for `n` more writes of the port (R79, R86). -/
def State.laybyRoom (s : State) (p n : Nat) : Bool :=
  decide ((s.port p).layby.length + n ≤ s.laybyMax p) && decide (s.laybyHeld + n ≤ 2048)

/-- A register whose write has no effect beyond its own bits (R371 to R376). -/
def plainOff (o : Nat) : Bool :=
  !(decide (0x11000 ≤ o) && decide (o < 0x12000) && o % 0x100 == 0)
    && !(decide (0x21000 ≤ o) && decide (o < 0x22000)) && !(decide (0x80100 ≤ o) && decide (o < 0x80500)) && !(decide (0x91000 ≤ o) && decide (o < 0x92000))
    && !(decide (0xC1000 ≤ o) && decide (o < 0xC1800) && (o % 0x20 == 0x10 || o % 0x20 == 0x14))
    && !([rHomRsv, rMaintCmd, rTestCtrl, rPrkCtrl, rVacCmd, rPrkRelease, rCryCtrl, rCmdFifo, rCmdCtrl, rIntrPend, rIntrMask,
      rIntrDmaLo, rIntrDmaHi, rPrtGctl, rStoCtrl, rRetireThresh].contains o)

/-- A command that Signpost serves next on path `p` in an awake device, past every check that comes before its operation
(R306 to R314): `u` is the state its operation starts from and `key` the key of its reply's trailer. -/
def State.accepts (s : State) (p : Path) (c : Cmd) (key : Option Key) (u : State) : Prop :=
  s.power.idle = false ∧ s.nextCmd p = some c ∧ s.serves p = true ∧ (s.dropCmd p).preCheck c = none ∧
    ∃ n, (s.dropCmd p).authenticate c = .level n key u ∧ opLevel c.opcode ≤ n

/-- The final reply of an accepted command: its session notes the answer (R313), and ends with the last `seq` (R314). -/
def State.replyWith (u : State) (p : Path) (c : Cmd) (key : Option Key) (st : Nat) (res : List Nat) : State :=
  ((u.sessionNote p key (st == sAuthFail)).lastSeqClose c key).cmdReply p (replyBytes c.opcode c.seq st res key)

/-- The final reply OK of a command with these result bytes. -/
def State.replyOk (u : State) (p : Path) (c : Cmd) (key : Option Key) (res : List Nat) : State := u.replyWith p c key sOk res

end Sys2Proof.Machine
end

