-- ==== Sys2Proof/Certificates/Slice0/Obligations.lean ====
section
/-! DEFINITION. The statements for the provers. Where a statement says that exec answers `.next t.norm`, `t` is the whole
next state written out, so it says at once what the command changes and that it changes nothing else; `norm` brings the
tables into canonical form and changes no value read (CanonicalForm). -/
open Sys2Proof Sys2Proof.Machine

/-! ### The machine as a whole -/

/-- A step takes the command at the front of the queue and answers what exec answers with the queue's rest (log entry 2). No
command ends a run: whatever the state, exec answers a next state (log entry 3). -/
def Obligations.StepRunsFrontCommand : Prop :=
  (∀ (c : Instr) (r : List Instr) (s : State), s.pending = c :: r → step s = exec c { s with pending := r }) ∧
  (∀ (c : Instr) (s : State), ∃ t, exec c s = .next t)

/-- A step without a command changes nothing in a device that is not clocked and runs no power-loss drain (log entry 2, the
model's choice); in a clocked device one fc passes and fc stays below the 1,536,000 fc of a tick. -/
def Obligations.IdleStep : Prop :=
  ∀ s : State, s.pending = [] →
    (s.power.boot.clocked = false → s.power.boot ≠ .powerDrain → step s = .next s) ∧
    (s.power.boot.clocked = true → step s = .next s.fcPass.norm) ∧
    (s.power.boot.clocked = true → 1536000 ≤ s.fc + 1 → step s = .next s.norm)

/-- What the manual says holds after reset: PORST_N low, every register at the Reset column's value, no key in KS1 to KS15,
MGT_TICK 0, both FIFOs empty, every event counter 0, every link in DETECT, and the model's queue empty. The state after
reset has its tables in canonical form. -/
def Obligations.ResetLeaves : Prop :=
  (State.reset.power.boot = .reset ∧ State.reset.power.porstN = false ∧ State.reset.pending = [] ∧
   (∀ o, State.reset.reg o = (layout o).reset) ∧ State.reset.cry.keys = [] ∧ State.reset.tick = 0 ∧
   State.reset.mgt.cmdFifo = [] ∧ State.reset.mgt.replyFifo = [] ∧ State.reset.mgt.evtFifo = [] ∧
   (∀ n, State.reset.cnt n = .init) ∧ (∀ l, (State.reset.link l).state = .detect) ∧ State.reset.saf.safe = .normal) ∧
  (State.reset.tablesWf = true)

/-- Every step keeps the canonical form of every table: control space, links, ports, queues, home slots, filter, chains, ways,
frames, dies, park slots, DRAM, keys, tag buffers, DMA channels, telemetry, trims and counters. -/
def Obligations.StepKeepsCanonical : Prop :=
  ∀ s t : State, s.tablesWf = true → step s = .next t → t.tablesWf = true

/-- The canonical form changes no value that is read from a table. A state in canonical form is its own normal form, so for
such a state `.next t.norm` is `.next t`. A table of the machine is a memory: a canonical table after a write reads the
value written at its key and what it read before at every other key, and is canonical again. Stated for the DRAM array
(`d` none: never written) and the control space (`d` the reset values). -/
def Obligations.CanonicalForm : Prop :=
  (∀ (s : State) (k : Nat),
     s.norm.link k = s.link k ∧ s.norm.port k = s.port k ∧ s.norm.queue k = s.queue k ∧ s.norm.slot k = s.slot k ∧
     s.norm.fent k = s.fent k ∧ s.norm.chain k = s.chain k ∧ s.norm.way k = s.way k ∧ s.norm.die k = s.die k ∧
     s.norm.pslot k = s.pslot k ∧ s.norm.chan k = s.chan k ∧ s.norm.dch k = s.dch k ∧ s.norm.cnt k = s.cnt k ∧
     s.norm.arb k = s.arb k ∧ s.norm.reg k = s.reg k ∧
     tget noneDef s.norm.mem.array k = tget noneDef s.mem.array k ∧
     tget frameDef s.norm.sto.frames k = tget frameDef s.sto.frames k ∧
     tget noneDef s.norm.cry.keys k = tget noneDef s.cry.keys k) ∧
  (∀ s : State, s.tablesWf = true → s.norm = s ∧ s.done = .next s) ∧
  ((∀ (t : Tbl (Option Line)) (k j : Nat) (v : Option Line), twf noneDef t = true →
     twf noneDef (tset noneDef t k v) = true ∧
     tget noneDef (tset noneDef t k v) j = if j = k then v else tget noneDef t j) ∧
   (∀ (t : Tbl Reg3) (k j : Nat) (v : Reg3), twf csrInit t = true →
     twf csrInit (tset csrInit t k v) = true ∧
     tget csrInit (tset csrInit t k v) j = if j = k then v else tget csrInit t j))

/-! ### Power, resets and boot -/

/-- PORST_N low (R364, R261, R228): every register at its reset value, counters, ports, queues, home, waypoint, DMA and key
slots as after reset, the retention flag clear, links in DETECT, both FIFOs and the event FIFO empty, the SAF counts 0;
the stored frames, the persisted epoch, the firmware slots and the queue of commands stay. -/
def Obligations.PorstAssertResets : Prop :=
  ∀ s : State, ∃ t, exec .porstNAssert s = .next t ∧
    t.power.boot = .reset ∧ t.power.porstN = false ∧ t.tick = 0 ∧ t.fc = 0 ∧
    (∀ o, t.reg o = (layout o).reset) ∧ (∀ n, t.cnt n = .init) ∧ (∀ p, t.port p = .init) ∧ (∀ q, t.queue q = .init) ∧
    t.home = .init ∧ t.wp = .init ∧ (∀ n, t.dch n = .init) ∧ t.cry = .init ∧
    t.prk.retention = false ∧ t.prk.saved = [] ∧ (∀ l, (t.link l).state = .detect) ∧
    t.mgt.cmdFifo = [] ∧ t.mgt.replyFifo = [] ∧ t.mgt.evtFifo = [] ∧
    t.saf.cntC = 0 ∧ t.saf.cntP = 0 ∧ t.saf.cntD = 0 ∧ t.saf.cntX = 0 ∧ t.saf.cntAlarm = 0 ∧ t.saf.safe = .normal ∧
    (∀ f, tget frameDef t.sto.frames f = tget frameDef s.sto.frames f) ∧ t.sto.epochSaved = s.sto.epochSaved ∧
    t.mgt.slotA = s.mgt.slotA ∧ t.mgt.slotB = s.mgt.slotB ∧ t.pending = s.pending

/-- PORST_N high with STRAP_RECOVER high (R368, R369): the straps are taken, the reset cause is 0, and the boot stops after
step 2 with all links DISABLED; no key, frame, epoch or DRAM content changes. PORST_N high, and VMAIN_SENSE rising after a
drain with PORST_N high, with training passed and no seal record (R183, R208, R209, R229, R237, R249, R335, R367, R369,
R370): with a majority in MEM_CTRL the boot reaches step 7 with the next epoch value, the trained configuration and its
saved identification, no record, wear marked in use and the reset cause. The end of the key wait (R261, R229): step 5
decides and the boot reaches step 7; the record is erased. With no record that holds (its CRC wrong, or none), the epoch
advances. -/
def Obligations.BootWithoutSeal : Prop :=
  (∀ (s : State) (st : Straps) (tr : Train), s.tablesWf = true → s.power.porstN = false → st.recover = true →
     ∃ t, exec (.porstNRelease st tr) s = .next t ∧ t.power.boot = .recover ∧ t.power.porstN = true ∧
       t.power.straps = st ∧ t.power.resetCause = 0 ∧ (∀ l, l < 16 → (t.link l).state = .disabled) ∧
       t.cry = s.cry ∧ t.sto.frames = s.sto.frames ∧ t.sto.epoch = s.sto.epoch ∧ t.mem = s.mem ∧ t.pending = s.pending) ∧
  (∀ (s : State) (st : Straps) (d : Fin 3) (r2 : Bool) (rate : BitVec 3) (clash : Bool) (id : BitVec 16) (rfm : Option Nat),
     s.tablesWf = true → s.prk.sealRec = none → votesHold rMemCtrl (s.reg3 rMemCtrl) = true →
     (s.power.porstN = false → st.recover = false →
       ∃ t, exec (.porstNRelease st (.pass d r2 rate clash id rfm)) s = .next t ∧ t.power.boot = .run ∧ t.power.porstN = true ∧
         t.power.straps = st ∧ t.power.resetCause = 0 ∧ t.sto.epoch = nextEpoch s.sto.epochSaved ∧
         t.sto.epochSaved = nextEpoch s.sto.epochSaved ∧ t.prk.sealRec = none ∧ t.sto.wearClean = false ∧
         t.mem.trained = true ∧ t.mem.density = d.val ∧ t.mem.ranks2 = r2 ∧ t.mem.saved = some id) ∧
     (s.power.porstN = true → s.power.vmainOk = false → s.power.boot = .off → s.power.offDrain = true →
       s.power.straps.recover = false →
       ∃ t, exec (.vmainSenseRise (.pass d r2 rate clash id rfm)) s = .next t ∧ t.power.boot = .run ∧ t.power.vmainOk = true ∧
         t.power.resetCause = 4 ∧ t.sto.epoch = nextEpoch s.sto.epochSaved ∧
         t.sto.epochSaved = nextEpoch s.sto.epochSaved ∧ t.prk.sealRec = none ∧ t.sto.wearClean = false ∧
         t.mem.trained = true ∧ t.mem.density = d.val ∧ t.mem.ranks2 = r2 ∧ t.mem.saved = some id)) ∧
  (∀ s : State, s.tablesWf = true → s.power.boot = .keyWait → s.saf.safe ≠ .stop →
     ∃ t, exec .keyWaitTimeout s = .next t ∧ t.power.boot = .run ∧ t.prk.sealRec = none ∧ t.sto.wearClean = false ∧
       (∀ r, s.prk.sealRec = some r → r.crcOk = false → t.sto.epoch = nextEpoch s.sto.epochSaved))

/-- WARM_N falls while work is in flight (R365): the device leaves Idle, admission stops, and the drain runs; in the stop
state it changes nothing but the pin's level (log entry 13). The warm drain has ended (R364, R366, R367): the device
restarts with cause 1, queues and reservations empty, event counters 0, the keys, the voted and W1C fields and the epoch
kept. -/
def Obligations.WarmReset : Prop :=
  (∀ s : State,
     (s.mayWarm = true → { s.wake with power := { s.wake.power with warmN := false } }.quiet = false →
       exec .warmNFall s = .next (State.norm { s.wake with
         power := { s.wake.power with warmN := false, boot := .warmDrain, softPending := false, replyPath := none } })) ∧
     (s.mayWarm = false → exec .warmNFall s = .next (State.norm { s with power := { s.power with warmN := false } }))) ∧
  (∀ (s : State) (d : Fin 3) (r2 : Bool) (rate : BitVec 3) (clash : Bool) (id : BitVec 16) (rfm : Option Nat),
     s.tablesWf = true → s.power.boot = .warmDrain → s.quiet = true → s.power.softPending = false →
     s.power.straps.recover = false → s.sto.epoch ≠ 0 → s.sto.epochSaved = s.sto.epoch →
     votesHold rMemCtrl (s.reg3 rMemCtrl) = true →
     ∃ t, exec (.warmDrainEnd (.pass d r2 rate clash id rfm)) s = .next t ∧ t.power.boot = .run ∧ t.power.resetCause = 1 ∧
       t.power.warmN = true ∧ (∀ q, t.queue q = .init) ∧ (∀ n, t.cnt n = .init) ∧ (∀ p, (t.port p).rsv = none) ∧
       t.cry.keys = s.cry.keys ∧ t.sto.epoch = s.sto.epoch ∧ t.mem.trained = true ∧ t.pending = s.pending)

/-- VMAIN_SENSE falls in the running device (R231, R358): with the backup supply present the drain runs from it, its record is
kind DRAINED, DRAM is lost and the volatile state is gone; with it absent nothing is written and the short drain is
remembered for the next boot (R232). In both the keys stay, as VAON is present (R261). The supplies (R232, R228, R261,
R358): VBAK below 3.0 V stops a running drain without its record and otherwise only shows in `vbak_ok`; VBAK back shows
there; VAON below its minimum clears the keys, the retention flag and the retention storage. -/
def Obligations.PowerLossAndSupplies : Prop :=
  (∀ (s : State) (errs : List (Nat × FrameErr)), s.tablesWf = true → s.power.vmainOk = true → s.power.boot = .run →
     s.saf.safe ≠ .stop →
     (s.power.vbakOk = true → ∃ t r, exec (.vmainSenseFall errs) s = .next t ∧ t.power.boot = .powerDrain ∧
       t.power.onVbak = true ∧ t.power.vmainOk = false ∧ t.prk.sealRec = some r ∧ r.kind = .drained ∧ r.crcOk = true ∧
       r.epoch = s.sto.epoch ∧ r.parkSize = s.prk.size ∧ t.cry.keys = s.cry.keys ∧ t.wp = .init ∧ t.home = .init ∧
       (∀ q, t.queue q = .init)) ∧
     (s.power.vbakOk = false → ∃ t, exec (.vmainSenseFall errs) s = .next t ∧ t.power.boot = .off ∧
       t.power.onVbak = false ∧ t.power.vmainOk = false ∧ t.prk.sealRec = none ∧ t.prk.drainShort = true ∧
       (∀ f, tget frameDef t.sto.frames f = tget frameDef s.sto.frames f) ∧ t.cry.keys = s.cry.keys ∧ t.wp = .init)) ∧
  ((∀ s : State, s.power.boot ≠ .powerDrain →
     exec .vbakLow s = .next (State.norm { s with power := { s.power with vbakOk := false } })) ∧
   (∀ s : State, s.power.boot = .powerDrain →
     exec .vbakLow s = .next (State.norm { s with
       prk := { s.prk with sealRec := none, drainShort := true }
       power := { s.power with vbakOk := false, boot := .off, onVbak := false } })) ∧
   (∀ s : State, exec .vbakRise s = .next (State.norm { s with power := { s.power with vbakOk := true } })) ∧
   (∀ s : State, exec .vaonFall s = .next (State.norm { s with
     power := { s.power with vaonOk := false }, prk := { s.prk with retention := false, saved := [] }
     cry := { s.cry with keys := [] } })))

/-- A missing REFCLK and an over-temperature stop (R363, R391, R341): one class X entry, code 0x82 or 0x81 of block 0xB, and
the stop state; on over-temperature ALERT_N is then driven low whatever the alert masks hold. Entry to the stop state
(R341): the state is stop, the queues hold nothing and every answer they owe is complete with the parts that were missing
HALTED, lay-bys, miss tokens and reservations are empty, and the home's slots are gone. -/
def Obligations.StopStateAbandons : Prop :=
  (∀ s : State, s.power.boot.clocked = true →
     exec .refclkMissing s = .next ((({ s with power := { s.power with refclk := false } }).logEvent 11 0x82 .x none 0
       ).stopState 11 0x82).norm ∧
     (s.power.overTemp = false → ∃ t, exec .overTemperatureStop s = .next t ∧
       t = (State.driveAlert (let u := (s.logEvent 11 0x81 .x none 0).stopState 11 0x81
         { u with power := { u.power with overTemp := true } })).norm ∧ t.power.alertN = false ∧ t.power.overTemp = true)) ∧
  (∀ (s : State) (block code : Nat), s.saf.safe ≠ .stop → s.tablesWf = true →
     let t := s.stopState block code
     t.saf.safe = .stop ∧ t.saf.drainBusy = false ∧
     (∀ q, (t.queue q).ents = [] ∧ (t.queue q).answers = ((s.queue q).answers.map (Ans.giveUp stHalted))) ∧
     (∀ p, (t.port p).layby = [] ∧ (t.port p).missToken = none ∧ (t.port p).rsv = none ∧ (t.port p).fence = none) ∧
     t.home.slots = [] ∧ t.sto.frames = s.sto.frames ∧ t.cry.keys = s.cry.keys)

/-- Idle (R354): it is entered when its conditions hold, and any cause that leaves it wakes the store dies. Standby (R75, R355
step 9, R357): when the reply has been read out or its wait is over, links that do not listen for a wake and are not in
QUARANTINE go to electrical idle and STBY_ACK goes high; a wake cause that is enabled drives it low and is recorded. -/
def Obligations.IdleAndStandby : Prop :=
  ((∀ s : State, s.mayIdle = true →
     exec .idleEntry s = .next (State.norm { s with power := { s.power with idle := true } })) ∧
   (∀ s : State, s.mayIdle = false → exec .idleEntry s = .next s.norm) ∧
   (∀ s : State, s.power.idle = true →
     exec .idleExit s = .next (State.norm { s with
       power := { s.power with idle := false }
       sto := { s.sto with dies := s.sto.dies.map (fun e => (e.1, { e.2 with asleep := false })) } }))) ∧
  ((∀ s : State, s.tablesWf = true → s.power.boot = .standbyEntry → s.power.replyPath = none →
     ∃ t, exec .standbyReplyWaitEnd s = .next t ∧ t.power.boot = .standby ∧ t.power.stbyAck = true ∧
       (∀ l, l < 16 → s.bit (rLnkCtrl l) 7 = false → (s.link l).state ≠ .quarantine → (t.link l).state = .disabled) ∧
       (∀ l, l < 16 → s.bit (rLnkCtrl l) 7 = true ∨ (s.link l).state = .quarantine → t.link l = s.link l) ∧ t.sto = s.sto ∧ t.prk = s.prk ∧
       t.cry = s.cry ∧ t.csr = s.csr) ∧
   (∀ (s : State) (w : Wake), s.power.boot = .standby → s.power.stbyAck = true → s.wakes w = true →
     exec (.standbyWake w) s = .next (State.norm { s with
       power := { s.power with wakeCause := wakeCode w, stbyAck := false }, out := s.out ++ [.stbyAck false] })) ∧
   (∀ (s : State) (w : Wake), s.wakes w = false → exec (.standbyWake w) s = .next s.norm))

/-! ### The milestone tick -/

/-- A tick boundary with nothing to police, report or check (R31, R295, R362): MGT_TICK counts up, fc restarts, the marker of
the new tick is not yet written, the overrun run ends, the governor step of the closed tick takes effect when it completed
(the throttle level rises after a tick with the guard engaged and falls after one under 85 %), and the port tokens of the
new tick follow the staged grant and the level. No queue, key or stored frame changes. The throttle level (R362): never
above 7, up by one after a tick with the guard engaged, down by one after a tick that ended below 85 % of the allowance,
never below 0. -/
def Obligations.TickBoundaryQuiet : Prop :=
  (∀ (s : State) (i : TickIn), s.tablesWf = true → s.power.boot = .run → s.saf.safe = .normal → s.saf.marker = true →
     s.fld rPrtGctl 0 8 = 0 → s.power.softPending = false → i.wrEccFatal = false → i.steps.getLsbD 4 = false →
     ∃ t, exec (.tickBoundary i) s = .next t ∧ t.tick = s.tick + 1 ∧ t.fc = 0 ∧ t.saf.marker = false ∧
       t.saf.stepsDone = BitVec.ofNat 7 (Nat.land i.steps.toNat (if s.mgt.shoulder then 0x11 else 0x3f)) ∧
       t.saf.overrunRun = 0 ∧ t.power.guard = false ∧
       t.power.level = (if s.saf.stepsDone.getLsbD 5 then nextLevel s.power.level s.power.guardTick
         (decide (i.meter * 100 < s.power.allowance * 85)) else s.power.level) ∧
       t.power.cap = (if s.saf.stepsDone.getLsbD 5 then s.power.capNext else s.power.cap) ∧
       t.wp.portTokens = (if s.saf.stepsDone.getLsbD 3 then s.fld rPfCtrl 6 10 else s.wp.grantPort) *
         (8 - t.power.level) / 8 ∧
       (∀ q, t.queue q = s.queue q) ∧ t.cry.keys = s.cry.keys ∧ t.sto.frames = s.sto.frames ∧ t.pending = s.pending) ∧
  (∀ (n : Nat) (guard under : Bool), n ≤ 7 →
     nextLevel n guard under ≤ 7 ∧ (guard = true → nextLevel n guard under = min 7 (n + 1)) ∧
     (guard = false → under = true → nextLevel n guard under = n - 1) ∧
     (guard = false → under = false → nextLevel n guard under = n))

/-- Marks within a tick (R295, R337, R361): the completion marker is written when every scheduled step has finished, and
firmware then clears pending bits of sources routed to I3C, which of them being a free value (R322, log entry 61); a tick
without it is a class C overrun once (SAF_ERR bit 0, interrupt source 8); the guard engages at the budget. Persisting
(R205, R295, R328, R354): where step 7 is due and not yet done, the lifetime counters, the pass positions and the log
entries go to the system segment and step 7 of the tick is done; nothing else changes. In Idle the sense circuits of a die
power down. -/
def Obligations.TickMarks : Prop :=
  (∀ s : State, s.power.boot = .run → s.saf.safe = .normal →
     (s.stepsMissing = 0 → Nat.land s.pendBits (s.fld rIntrMask 20 10) = 0 →
       exec .scheduledWorkDone s = .next (State.norm { s with saf := { s.saf with marker := true } })) ∧
     (s.stepsMissing = 0 →
       exec .scheduledWorkDone s = .next ({ s with saf := { s.saf with marker := true } } : State).fwClear.norm) ∧
     (s.stepsMissing ≠ 0 → exec .scheduledWorkDone s = .next s.norm) ∧
     (s.saf.marker = false → s.saf.overrunSeen = false → s.saf.overrunRun = 0 →
       exec .tickOverrun s = .next ((({ s with saf := { s.saf with overrunRun := 1, overrunSeen := true } }).err rSafErr 11 0
         .c none 0 (BitVec.ofNat 64 s.stepsMissing)).raise 8 0).norm) ∧
     (s.saf.marker = true → exec .tickOverrun s = .next s.norm) ∧
     exec .guardEngage s = .next (State.norm { s with power := { s.power with guard := true, guardTick := true } })) ∧
  ((∀ s : State, s.wearDue = false → exec .wearPersist s = .next s.norm) ∧
   (∀ s : State, s.wearDue = true → s.tablesWf = true →
     ∃ t, exec .wearPersist s = .next t ∧ t.saf.stepsDone = s.saf.stepsDone ||| 0x40 ∧ t.saf.wearOwed = false ∧ (∀ n, n < 8 → t.die n = (s.die n).persist) ∧
       (∀ n, 8 ≤ n → t.die n = s.die n) ∧ t.saf.log = s.saf.log.map (fun e => { e with saved := true }) ∧
       t.sto.frames = s.sto.frames ∧ t.sto.epoch = s.sto.epoch ∧ t.csr = s.csr ∧ t.home = s.home ∧ t.wp = s.wp ∧
       t.mem = s.mem ∧ t.cry = s.cry) ∧
   (∀ (s : State) (n : Fin 8), s.power.idle = true →
     exec (.storeSensePowerDown n) s = .next (s.setDie n.val { s.die n.val with asleep := true }).norm) ∧
   (∀ (s : State) (n : Fin 8), s.power.idle = false → exec (.storeSensePowerDown n) s = .next s.norm))

/-- A second overrun in a row is class X and enters shoulder mode with cause 3: admission is held and every region in the
junction filter is due for a recall (R337, R339). The end of the shoulder drain tells the partners with one HALT_NOTICE on
each ACTIVE link, ends every caching role, empties the waypoint cache and the filter, and lets traffic in again. -/
def Obligations.ShoulderEntryAndEnd : Prop :=
  (∀ s : State, s.tablesWf = true → s.power.boot = .run → s.saf.safe = .normal → s.saf.marker = false →
    s.saf.overrunSeen = false → s.saf.overrunRun = 1 →
    ∃ t, exec .tickOverrun s = .next t ∧ t.saf.safe = .shoulder ∧ t.saf.drainBusy = true ∧ t.mgt.shoulder = true ∧
      t.mgt.shoulderCause = 3 ∧ t.home.recallDue = s.filterValid.map Prod.fst ∧ t.home.slots = s.home.slots ∧
      (∀ q, t.queue q = s.queue q)) ∧
  (∀ s : State, s.shoulderReady = true → s.mem.overflow = false → s.dirtyWays = [] → s.framesUsed (cacheFrames s.prk.size) = [] →
    s.prk.slots = [] → s.tablesWf = true →
    ∃ t, exec .shoulderDrainDone s = .next t ∧ t.saf.safe = .shoulder ∧ t.saf.drainBusy = false ∧ t.wp.ways = [] ∧
      t.home.filter = [] ∧ t.prk.sealRec = none ∧ (∀ l, l < 16 → (t.link l).roleCaching = false))

/-! ### Causeway links -/

/-- Forward progress of training (R60, R63, R108): termination found on four or more lanes enters SYNC with sequence numbers,
replay buffer, tolls and messages cleared; SYNC complete on a usable width enters PARAM; TS_DONE in EQ enters ACTIVE with
the tolls at the advertised values, the first caching link latches the domain class, and a detachable link does not cache
in a wide one; TS_DONE in RETRAIN enters ACTIVE and replays. TS_PARAM in PARAM (R61, R62, R64): the device answers each
with one of its own (log entry 58); a row of fewer than eight identical flits, or fewer than sixteen sent since the first
of them, only counts; then, with no field that fails training, EQ begins with the lower of the two rates, the width of the
lanes good on both sides, the effective role, the partner's tolls and its stream count. -/
def Obligations.LinkTrains : Prop :=
  (∀ (s : State) (l : Fin 16),
     (∀ lanes, s.power.boot = .run → (s.link l.val).state = .detect → (l.val < 14 ∨ (s.link l.val).prsntHigh = false) →
       4 ≤ popcount lanes → ∃ k, exec (.linkDetectPoll l lanes) s = .next (s.setLink l.val k).norm ∧ k.state = .sync ∧
         k.txSeq = 0 ∧ k.rxExp = 0 ∧ k.replayBuf = [] ∧ k.txWait = [] ∧ k.assembly = none ∧ k.txAvail = .zero ∧
         k.txSent = .zero ∧ k.rxHeld = .zero ∧ k.trainFails = 0 ∧ k.present = true) ∧
     (∀ lanes w, (s.link l.val).state = .sync → chooseWidth lanes false = some w →
       exec (.syncComplete l lanes) s = .next (s.setLink l.val { s.link l.val with
         state := .param, laneGood := lanes, lastParam := none, paramSame := 0 }).norm) ∧
     (∀ lanes, (s.link l.val).state = .retrain → (s.link l.val).x4 = false → lanes = 255 →
       exec (.syncComplete l lanes) s = .next (s.setLink l.val { s.link l.val with laneGood := 255, x4 := false, lanesHi := false }).norm) ∧
     ((s.link l.val).state = .eq → (s.link l.val).roleCaching = false → s.votesOk (s.votedUsed usesLinks) = true →
       s.saf.safe ≠ .stop → exec (.tsDone l) s = .next (s.setLink l.val { s.link l.val with
         state := .active, txAvail := (s.link l.val).adv, trainFails := 0
         peerWindows := ((s.link l.val).lastParam.map (fun p => p.role.getLsbD 1)).getD (s.link l.val).peerWindows }).norm) ∧
     ((s.link l.val).state = .eq → (s.link l.val).roleCaching = true → s.home.wide = none →
       s.votesOk (s.votedUsed usesLinks) = true → s.saf.safe ≠ .stop → s.bit (rLnkCtrl l.val) 1 = true →
       s.mgt.shoulder = false → (l.val < 14 ∨ s.cachingBits ≤ 8) →
       ∃ t, exec (.tsDone l) s = .next t ∧ (t.link l.val).state = .active ∧ (t.link l.val).roleCaching = true ∧
         (t.link l.val).txAvail = (s.link l.val).adv ∧ t.home.wide = some (decide (8 < s.cachingBits)) ∧ t.csr = s.norm.csr) ∧
     ((s.link l.val).state = .eq → (s.link l.val).roleCaching = true → s.home.wide = some true → 14 ≤ l.val →
       s.votesOk (s.votedUsed usesLinks) = true → s.saf.safe ≠ .stop →
       ∃ t, exec (.tsDone l) s = .next t ∧ (t.link l.val).state = .active ∧ (t.link l.val).roleCaching = false) ∧
     ((s.link l.val).state = .retrain → exec (.tsDone l) s = .next (((s.setLink l.val { s.link l.val with state := .active }
       ).resendAll l.val (s.link l.val).replayBuf).flush l.val).norm) ∧
     ((s.link l.val).state = .eq ∨ (s.link l.val).state = .retrain →
       exec (.tsEq l) s = .next (({ s with free := s.free + 1 }).setLink l.val
         { s.link l.val with eqPreset := Int.ofNat (Config.freeNat s.free) }).norm)) ∧
  (∀ (s : State) (l : Fin 16) (p : TsParam), (s.link l.val).state = .param →
     ((s.link l.val).lastParam ≠ some p → exec (.tsParam l p) s = .next (s.setLink l.val
       { s.link l.val with lastParam := some p, paramSame := 1, paramSent := 1 } |>.emit (.train l.val 1)).norm) ∧
     ((s.link l.val).lastParam = some p → ((s.link l.val).paramSame < 7 ∨ (s.link l.val).paramSent < 15) →
       exec (.tsParam l p) s = .next (s.setLink l.val { s.link l.val with
         lastParam := some p, paramSame := (s.link l.val).paramSame + 1, paramSent := (s.link l.val).paramSent + 1
         } |>.emit (.train l.val 1)).norm) ∧
     (s.tablesWf = true → (s.link l.val).lastParam = some p → 7 ≤ (s.link l.val).paramSame →
       15 ≤ (s.link l.val).paramSent → s.votesOk (s.votedUsed usesLinks) = true → s.saf.safe ≠ .stop → p.protoVer = 1 →
       1 ≤ p.streamCnt.toNat → p.streamCnt.toNat ≤ 64 → 18 ≤ p.req.toNat → 16 ≤ p.snp.toNat → 16 ≤ p.rsp.toNat →
       36 ≤ p.dat.toNat → 4 ≤ p.ctl.toNat → (s.link l.val).laneGood &&& p.laneOk = 255 → s.bit (rLnkCtrl l.val) 4 = false →
       ∃ t, exec (.tsParam l p) s = .next t ∧ (t.link l.val).state = .eq ∧
         (t.link l.val).rate = min (min 2 (s.fld (rLnkCtrl l.val) 2 2)) p.maxRate.toNat ∧ (t.link l.val).x4 = false ∧
         (t.link l.val).adv = ⟨p.req.toNat, p.snp.toNat, p.rsp.toNat, p.dat.toNat, p.ctl.toNat⟩ ∧
         (t.link l.val).streamCntM1 = p.streamCnt.toNat - 1 ∧ (t.link l.val).peerWindows = (s.link l.val).peerWindows ∧
         t.out = s.out ++ [.train l.val 1, .train l.val 3] ∧
         (p.role.getLsbD 0 = false → (t.link l.val).roleCaching = false) ∧ (∀ j, j ≠ l.val → t.link j = s.link j) ∧
         t.home = s.home ∧ t.csr = s.csr))

/-- What ends a training attempt (R60): the time limits of SYNC, PARAM and EQ at 8 GT/s restart at SYNC and count, the third
failure in a row is DEAD with `train_fail`; EQ above 8 GT/s goes one rate lower; no termination within 100 ms is ABSENT on
CW0 to CW13; RETRAIN past its limit is DEAD with `dead`. -/
def Obligations.TrainingEnds : Prop :=
  ∀ (s : State) (l : Fin 16),
    let k := s.link l.val
    let again := s.setLink l.val { k.toSync with trainFails := k.trainFails + 1 }
    let dead := ((s.setLink l.val { k with trainFails := 0 }).err (rLnkErr l.val) 1 9 .info (linkPort l.val) 0).linkDead l.val 3
    (k.state = .sync → k.trainFails < 2 → exec (.syncTimeout l) s = .next again.norm) ∧
    (k.state = .sync → 2 ≤ k.trainFails → exec (.syncTimeout l) s = .next dead.norm) ∧
    (k.state = .param → k.trainFails < 2 → exec (.paramTimeout l) s = .next again.norm) ∧
    (k.state = .param → 2 ≤ k.trainFails → exec (.paramTimeout l) s = .next dead.norm) ∧
    (k.state = .eq → k.rate = 0 → k.trainFails < 2 → exec (.eqTimeout l) s = .next again.norm) ∧
    (k.state = .eq → k.rate = 0 → 2 ≤ k.trainFails → exec (.eqTimeout l) s = .next dead.norm) ∧
    (k.state = .eq → 0 < k.rate → exec (.eqTimeout l) s = .next (s.setLink l.val { k with rate := k.rate - 1 }).norm) ∧
    (s.power.boot = .run → k.state = .detect → l.val < 14 →
      exec (.absentTimeout l) s = .next (s.setLink l.val { k with state := .absent }).norm) ∧
    (k.state = .retrain → exec (.retrainTimeout l) s = .next (s.linkDead l.val 3).norm)

/-- Retraining (R60, R63): loss of block lock, a TS_SYNC in ACTIVE and LNK_CTRL.`retrain` enter RETRAIN with `retrain` logged
and counted and keep sequence numbers, replay buffer, tolls and messages; at the fifth entry within one tick the rate
falls one step, or at 8 GT/s and x8 the width falls to x4. LNK_CTRL.`enable` and `quar_release` (R60, R71, R75): enable
leaves DISABLED for DETECT (for DETACHED while a presence pin is high); its clearing ends a link that carries messages as
a lost link and any other in DISABLED; release leaves QUARANTINE, in which `enable` is held. -/
def Obligations.RetrainAndLinkControl : Prop :=
  (∀ (s : State) (l : Fin 16) (v : Word),
     let k := s.link l.val
     let logged := s.err (rLnkErr l.val) 1 2 .c (linkPort l.val) 0
     let k' := { logged.link l.val with
       state := .retrain, retrainsTick := k.retrainsTick + 1, retrainCnt := satInc k.retrainCnt 255
       pwrOut := none, waking := false, replayRun := 0 }
     k.state = .active →
     (k.retrainsTick ≠ 4 → exec (.blockLockLoss l) s = .next (logged.setLink l.val k').norm ∧
       exec (.tsSync l) s = .next (logged.setLink l.val k').norm) ∧
     (k.retrainsTick = 4 → 0 < k.rate →
       exec (.blockLockLoss l) s = .next (logged.setLink l.val { k' with rate := k.rate - 1, rateLow := k.rateLow + 1 }).norm) ∧
     (s.power.boot = .run → s.saf.safe ≠ .stop → v.getLsbD 0 = true → v.getLsbD 5 = false → v.getLsbD 6 = true →
       s.home.wide = none → s.power.idle = false → s.votesOk (s.votedUsed usesLinks) = true →
       exec (.retrain l v) s = .next ((s.writeReg (rLnkCtrl l.val) v).enterRetrain l.val).norm)) ∧
  (∀ (s : State) (l : Fin 16) (v : Word), s.power.boot = .run → s.saf.safe ≠ .stop → s.power.idle = false →
     s.home.wide = none → s.votesOk (s.votedUsed usesLinks) = true →
     let w := s.writeReg (rLnkCtrl l.val) v
     (v.getLsbD 0 = true → v.getLsbD 5 = false → v.getLsbD 6 = false → (s.link l.val).state = .disabled →
       exec (.linkEnable l v) s = .next (w.toDetect l.val).norm) ∧
     (v.getLsbD 0 = false → v.getLsbD 5 = false → (s.link l.val).state.alive = true →
       exec (.linkDisable l v) s = .next (w.loseLink l.val .disabled).norm) ∧
     (v.getLsbD 0 = false → v.getLsbD 5 = false → (s.link l.val).state = .detect →
       exec (.linkDisable l v) s = .next (w.setLink l.val { s.link l.val with state := .disabled }).norm) ∧
     ((s.link l.val).state = .quarantine → v.getLsbD 0 = true → v.getLsbD 5 = true → v.getLsbD 6 = false →
       s.tablesWf = true → (s.reg3 (rLnkCtrl l.val)).a.getLsbD 0 = true → s.bit (rLnkCtrl l.val) 0 = true →
       ∃ t, exec (.quarRelease l v) s = .next t ∧ (t.link l.val).state = (s.link l.val).startState l.val ∧ (t.link l.val).trainFails = 0 ∧
         t.home.dead = s.home.dead &&& ~~~ (linkBit l.val) ∧ (∀ j, j ≠ l.val → t.link j = s.link j)))

/-- A MSG flit (R41 to R46, R53): in sequence it is accepted, the expected number advances modulo 1,024, its slots are taken
one after the other and an IDLE flit carries the acknowledgment when nothing else leaves; a header with no data hands on
its message at once; behind it is dropped; ahead it is dropped with one NAK naming the expected number; with a bad CRC it
is a class C entry and one NAK. IDLE, TOLL, NAK, PWR_REQ, PWR_ACK and PWR_NAK flits that pass their CRC in ACTIVE first
deliver their acknowledgment (R44), and what waited for replay buffer room leaves; then a TOLL returns tolls (R51), a NAK
replays from the number it names before anything new is sent (R46), a quiet device answers PWR_REQ with PWR_ACK and
sleeps, a busy one with PWR_NAK (R65), PWR_ACK enters the state asked for, PWR_NAK ends the request. The same flits on a
link where nothing waits, with every condition on the state and the flit (R44, R46, R51, R65): each completes with its own
effect. IDLE leaves the acknowledged flits out of the replay buffer and does nothing else; a TOLL whose counts do not go
beyond the slots sent returns them; a NAK counts a replay; PWR_REQ is answered PWR_ACK and the link sleeps; PWR_ACK enters
the state that was asked for; PWR_NAK withdraws the request. -/
def Obligations.FlitsReceived : Prop :=
  (∀ (s : State) (l : Fin 16) (f : Flit), (s.link l.val).state = .active →
     let acked := (s.setLink l.val ((s.link l.val).ack f)).flush l.val
     let behind := ((acked.link l.val).rxExp + 1024 - flitSeq f) % 1024
     (flitCrcOk f = false → exec (.msgFlit l f) s = .next (s.crcFail l.val).norm) ∧
     (flitCrcOk f = true → flitType f = 1 → behind = 0 → exec (.msgFlit l f) s = .next (acked.rxAccept l.val f).norm) ∧
     (flitCrcOk f = true → flitType f = 1 → (s.link l.val).txWait = [] → (s.link l.val).wbDone = [] →
       flitSeq f = (s.link l.val).rxExp → flitKind0 f = 0 → flitKind1 f = 0 →
       ∃ t, exec (.msgFlit l f) s = .next t ∧ (t.link l.val).rxExp = ((s.link l.val).rxExp + 1) % 1024 ∧
         (t.link l.val).rxAckVld = true ∧ (t.link l.val).nakOut = false ∧
         (t.link l.val).assembly = (s.link l.val).assembly ∧ (∀ q, t.queue q = s.queue q)) ∧
     (s.tablesWf = true → flitCrcOk f = true → flitType f = 1 → (s.link l.val).txWait = [] → (s.link l.val).wbDone = [] →
       flitSeq f = (s.link l.val).rxExp → flitKind0 f = 1 → flitKind1 f = 0 → (s.link l.val).assembly = none →
       let u := (s.setLink l.val { (s.link l.val).ack f with
         rxExp := ((s.link l.val).rxExp + 1) % 1024, rxAckVld := true, nakOut := false }).count 0x02 { link := some l.val }
       u.hdrSlots l.val (flitSlot0 f) = some 0 → u.hdrFault l.val (flitSlot0 f) 0 = none →
       let v := u.msgIn l.val (flitSlot0 f) []
       exec (.msgFlit l f) s = .next (if (v.out.drop s.out.length).all (fun o => !(o.onLink l.val)) &&
         (v.link l.val).state == .active then v.emit (.idle l.val (v.link l.val).txAck) else v).norm) ∧
     (flitCrcOk f = true → flitType f = 1 → 0 < behind → behind ≤ 512 → exec (.msgFlit l f) s = .next acked.norm) ∧
     (flitCrcOk f = true → flitType f = 1 → 512 < behind → (acked.link l.val).nakOut = false →
       exec (.msgFlit l f) s = .next ((acked.setLink l.val { acked.link l.val with nakOut := true }).linkOut l.val 1
         [(acked.link l.val).rxExp % 256, (acked.link l.val).rxExp / 256]).norm)) ∧
  (∀ (s : State) (l : Fin 16) (f : Flit), (s.link l.val).state = .active → flitCrcOk f = true →
     let b := s.setLink l.val ((s.link l.val).ack f)
     let a := b.flush l.val
     let k := a.link l.val
     let n := flitParam f 0
     (flitType f = 0 → exec (.idleFlit l f) s = .next a.norm) ∧
     (flitType f = 2 → flitLinkOp f = 0 → exec (.toll l f) s = .next (a.takeToll l.val f).norm) ∧
     (flitType f = 2 → flitLinkOp f = 1 → exec (.nak l f) s =
       .next ((b.replayFrom l.val (fun r => r.seq == (n + 256 * flitParam f 1) % 1024)).flush l.val).norm) ∧
     (flitType f = 2 → flitLinkOp f = 2 → k.quiet = true → k.pwrOut = none → (n = 1 ∨ n = 2) →
       exec (.pwrReq l f) s = .next ((a.linkOut l.val 3 [n]).enterSleep l.val n).norm) ∧
     (flitType f = 2 → flitLinkOp f = 2 → k.quiet = false →
       exec (.pwrReq l f) s = .next (a.linkOut l.val 4 [n]).norm) ∧
     (flitType f = 2 → flitLinkOp f = 3 → ∀ m, k.pwrOut = some m → exec (.pwrAck l f) s = .next (a.enterSleep l.val m).norm) ∧
     (flitType f = 2 → flitLinkOp f = 4 → exec (.pwrNak l f) s = .next (a.setLink l.val { k with pwrOut := none }).norm)) ∧
  (∀ (s : State) (l : Fin 16) (f : Flit), s.tablesWf = true → (s.link l.val).state = .active → flitCrcOk f = true →
     (s.link l.val).txWait = [] → (s.link l.val).wbDone = [] →
     let k := (s.link l.val).ack f
     let n := flitParam f 0
     (flitType f = 0 → exec (.idleFlit l f) s = .next (s.setLink l.val k).norm) ∧
     (flitType f = 2 → flitLinkOp f = 0 →
       (∀ c, c ≤ 4 → k.txRet.get c + ((flitParam f (2 * c) + 256 * flitParam f (2 * c + 1)) % 4096 + 4096 -
         k.txRetSeen.get c) % 4096 ≤ k.txSent.get c) →
       ∃ t, exec (.toll l f) s = .next t ∧ (t.link l.val).state = .active ∧
         (∀ c, c ≤ 4 → (t.link l.val).txRetSeen.get c = (flitParam f (2 * c) + 256 * flitParam f (2 * c + 1)) % 4096 ∧
           (t.link l.val).txAvail.get c = k.txAvail.get c + ((flitParam f (2 * c) + 256 * flitParam f (2 * c + 1)) % 4096 +
             4096 - k.txRetSeen.get c) % 4096)) ∧
     (flitType f = 2 → flitLinkOp f = 1 → k.replayRun < 7 → s.bit rIntrRoute 10 = false →
       ∃ t, exec (.nak l f) s = .next t ∧ (t.link l.val).replayRun = k.replayRun + 1 ∧ (t.link l.val).state = .active ∧
         (t.link l.val).replayBuf = k.replayBuf ∧ ∃ post, t.out = s.out ++
           (k.replayBuf.dropWhile (fun r => r.seq != (n + 256 * flitParam f 1) % 1024)).map
             (fun r => .resend l.val r.seq k.txAck) ++ post) ∧
     (flitType f = 2 → flitLinkOp f = 2 → k.quiet = true → k.pwrOut = none → (n = 1 ∨ n = 2) →
       ∃ t, exec (.pwrReq l f) s = .next t ∧ t.out = s.out ++ [.linkFlit l.val 3 [n] k.txAck] ∧
         t.link l.val = { k with state := sleepState n, pwrOut := none }) ∧
     (flitType f = 2 → flitLinkOp f = 2 → k.quiet = false →
       exec (.pwrReq l f) s = .next ((s.setLink l.val k).linkOut l.val 4 [n]).norm) ∧
     (flitType f = 2 → flitLinkOp f = 3 → k.quiet = true → ∀ m, k.pwrOut = some m →
       ∃ t, exec (.pwrAck l f) s = .next t ∧ t.link l.val = { k with state := sleepState m, pwrOut := none }) ∧
     (flitType f = 2 → flitLinkOp f = 4 →
       exec (.pwrNak l f) s = .next (s.setLink l.val { k with pwrOut := none }).norm))

/-- Link timers (R45, R46, R51, R65, R66, R68, R110): the NAK repeats; a replay timeout resends the unacknowledged flits;
freed slots go back in a TOLL flit; quiet past `light_idle` asks for SLEEP_LIGHT, past `deep_idle` for SLEEP_DEEP; a wake
from the partner and its end; a ring stop's reservation is held. A replay resends every unacknowledged flit from the named
one, in order, with the current acknowledgment (R44, R46): a replay timeout from the oldest. Each flit leaves once and the
buffer stays. -/
def Obligations.LinkTimers : Prop :=
  (∀ (s : State) (l : Fin 16), let k := s.link l.val
     (k.state = .active → k.nakOut = true → exec (.nakRepeatTimeout l) s = .next ((s.setLink l.val { k with nakOut := true }
       ).linkOut l.val 1 [k.rxExp % 256, k.rxExp / 256]).norm) ∧
     (k.state = .active → k.replayBuf ≠ [] → exec (.replayTimeout l) s = .next (s.replayFrom l.val (fun _ => true)).norm) ∧
     (k.state = .active → k.rxFreed.dat ≠ 0 → exec (.tollReturnTimeout l) s = .next (s.sendToll l.val).norm) ∧
     (k.state = .active → k.quiet = true → k.pwrOut = none → s.lightFc l.val ≠ 0 → s.deepFc l.val = 0 →
       exec (.lightIdleTimeout l) s = .next ((s.setLink l.val { k with pwrOut := some 1 }).linkOut l.val 2 [1]).norm) ∧
     (k.state = .active → k.quiet = true → k.pwrOut = none → s.deepFc l.val ≠ 0 →
       exec (.deepIdleTimeout l) s = .next ((s.setLink l.val { k with pwrOut := some 2 }).linkOut l.val 2 [2]).norm) ∧
     ((k.state = .sleepLight ∨ k.state = .sleepDeep) →
       exec (.linkWakeReceived l) s = .next (s.wake.setLink l.val { k with waking := true }).norm) ∧
     ((k.state = .sleepLight ∨ k.state = .sleepDeep) → k.waking = true → k.deepWake = false →
       exec (.linkWakeDone l) s = .next ((s.setLink l.val { k with state := .active, waking := false, deepWake := false }
         ).flush l.val).norm) ∧
     (∀ stop : Fin 24, exec (.ringInsertReserve stop) s = .next (State.norm { s with
       out := s.out ++ [.ringReserve stop.val], ring := sinsert stop.val s.ring }))) ∧
  (∀ (s : State) (l : Fin 16), s.tablesWf = true → (s.link l.val).state = .active → (s.link l.val).replayBuf ≠ [] →
     (s.link l.val).replayRun + 1 < 8 → s.bit rIntrRoute 10 = false →
     ∃ t, exec (.replayTimeout l) s = .next t ∧ (t.link l.val).replayBuf = (s.link l.val).replayBuf ∧
       (t.link l.val).replayRun = (s.link l.val).replayRun + 1 ∧ (t.link l.val).state = .active ∧
       ∃ post, t.out = s.out ++
         (s.link l.val).replayBuf.map (fun r => .resend l.val r.seq (s.link l.val).txAck) ++ post)

/-- Tolls are conserved (R49, R52): sending a message spends one toll of its class for each slot and adds as many to the count
sent, no other class changes, and with the tolls held the sum of tolls available and sent stays what it was; a full return
(R51) brings the slots back. A message goes out as flits with consecutive sequence numbers modulo 1,024, two slots to a
flit, header first and slots in order (R45, R53; the packing is log entry 9); behind a flit of the same fc whose slot 1 is
free its header takes that slot. -/
def Obligations.TollsConserved : Prop :=
  (∀ (k : Link) (half : Bool) (m : Msg), k.canSend m = true →
     let u := k.send half m
     (∀ c, c ≤ 4 → u.txAvail.get c + u.txSent.get c = k.txAvail.get c + k.txSent.get c) ∧
     u.txAvail.get m.cls + m.slots = k.txAvail.get m.cls ∧
     (∀ c, c ≤ 4 → c ≠ min 4 m.cls → u.txAvail.get c = k.txAvail.get c) ∧
     u.replayBuf.length ≤ 256 ∧ u.rxExp = k.rxExp ∧ u.state = k.state) ∧
  ((∀ (k : Link) (m : Msg) (r : List TxFlit) (f : TxFlit), k.replayBuf = r ++ [f] →
     k.sendBuf true m = r ++ { f with kind1 := 1, slot1 := m.hdr } :: packSlots k.txSeq (m.data.map (fun d => (2, d)))) ∧
   ∀ (m : Msg) (q : Nat),
     (m.flits q).length = (m.slots + 1) / 2 ∧
     (∀ i (h : i < (m.flits q).length), ((m.flits q)[i]).seq = (q + i) % 1024) ∧
     (m.flits q).flatMap (fun f => if f.kind1 = 0 then [f.slot0] else [f.slot0, f.slot1]) = m.hdr :: m.data)

/-- Presence and detach (R60, R71 to R73): a presence pin low leaves DETACHED for DETECT; high starts the debounce; its end is
a lost link in DETACHED; a detach request of CW14 or CW15 is accepted and its regions come due for recall, and on a
soldered link it is a violation; a complete detach answers and enters DETACHED. A detach request from a link without a
presence pin is a protocol violation: quarantine (R72, R74). -/
def Obligations.PresenceAndDetach : Prop :=
  (∀ (s : State) (l : Fin 16), 14 ≤ l.val → let k := s.link l.val
     (k.state = .detached → exec (.presenceAssert l) s =
       .next ((s.setLink l.val { k with prsntHigh := false, debounce := false }).toDetect l.val).norm) ∧
     (k.state = .detached → ∃ t, exec (.presenceAssert l) s = .next t ∧ (t.link l.val).state = .detect ∧
       (t.link l.val).present = true ∧ (t.link l.val).prsntHigh = false ∧ (t.link l.val).debounce = false) ∧
     (k.state ≠ .detached → ∃ t, exec (.presenceAssert l) s = .next t ∧
       t.link l.val = { k with prsntHigh := false, debounce := false, present := true }) ∧
     (exec (.presenceDeassert l) s =
       .next (s.setLink l.val { k with prsntHigh := true, present := false, debounce := k.state != .quarantine }).norm) ∧
     (k.debounce = true → k.state = .active → exec (.surpriseDetach l) s =
       .next ((((s.setLink l.val { k with debounce := false }).err (rLnkErr l.val) 1 4 .info (linkPort l.val) 0).raise 9 l.val
         ).loseLink l.val .detached).norm) ∧
     (k.debounce = false → exec (.surpriseDetach l) s = .next s.norm) ∧
     (k.state = .active → k.rxHeld.ctl + k.rxFreed.ctl < 8 → ∃ u : State, exec (.detachReq l) s = .next u.settle.norm ∧
       u.home.recallDue = s.home.recallDue ++
         ((((s.setLink l.val { k with detaching := true, rxHeld := k.rxHeld.upd 4 (· + 1) }).freeSlots l.val 4 1
           ).filterOfLink l.val).filter (fun d => !(s.home.recallDue.contains d)))) ∧
     (k.state = .active → k.detaching = true → s.detachReady l.val = true → k.canSend detachAck = true →
       k.classClear detachAck = true → exec (.detachComplete l) s =
       .next (let u := (s.sendMsg l.val detachAck).dropPorts l.val
         let v := u.setLink l.val { u.link l.val with
           state := .detached, detaching := false, replayBuf := [], txWait := [], assembly := none, nakOut := false }
         (v.logEvent 1 0x80 .info (linkPort l.val) 0).raise 9 l.val).norm)) ∧
  (∀ (s : State) (l : Fin 16), l.val < 14 → (s.link l.val).state = .active →
     exec (.detachReq l) s = .next (s.quarantine l.val 5).norm)

/-! ### Requests, queues and the home engine -/

/-- A queued request that passes every enqueue check (R77, R78, R83, R140): it joins the tail of its queue with the next
arrival number, as two entries where a read crosses a line, and its answer joins the queue's answers; the tag is in use.
No other queue, no port, home slot, stored frame, DRAM line or key changes. Stated for RD_SHARED, RD_UNIQUE, RD_ONCE,
UPGRADE, EVICT_CLEAN, RD_RSV and ATOMIC, with no write waiting in the port's lay-by (else R91). -/
def Obligations.RequestQueued : Prop :=
  ∀ (s : State) (l : Fin 16) (h : Req) (slots : List MsgSlot) (op : BitVec 6) (c : Instr), s.tablesWf = true →
    (op, c, slots) ∈ [(opRdShared, .rdShared l h, []), (opRdUnique, .rdUnique l h, []), (opRdOnce, .rdOnce l h, []),
      (opUpgrade, .upgrade l h, []), (opEvictClean, .evictClean l h, []), (opRdRsv, .rdRsv l h, []),
      (opAtomic, Instr.atomic l h slots, slots)] →
    let p := l.val * 64 + h.stream.toNat
    let q := queueOf p h.tc.toNat
    let ps := reqParts op h
    s.canEnter l.val h slots.length = true → s.poolRoom p ps.length = true → (s.port p).layby = [] →
    failures (s.enqCheck l.val p op h) = [] →
    ∃ t es, exec c s = .next t ∧ (∀ e ∈ es, e.id = s.arrival ∧ e.op = op ∧ e.tag = h.tag ∧ e.busErr = false) ∧
      es.map (fun e => (e.addr, e.size)) = ps.map (fun x => (BitVec.ofNat 40 x.1, x.2)) ∧
      t.queue q = ⟨(s.queue q).ents ++ es, (s.queue q).answers ++ [mkAns s.arrival op h (decide (1 < ps.length))]⟩ ∧
      t.arrival = s.arrival + 1 ∧ (t.link l.val).reqTags = (s.link l.val).reqTags ++ [h.tag.toNat] ∧
      (∀ j, j ≠ q → t.queue j = s.queue j) ∧ (∀ j, t.port j = s.port j) ∧ t.home = s.home ∧
      t.sto.frames = s.sto.frames ∧ t.mem = s.mem ∧ t.cry = s.cry ∧ t.pending = s.pending

/-- A write that passes every enqueue check and does not merge (R77, R86, R88, R140): it becomes the youngest lay-by entry of
its port with its bytes and mask, two entries where it crosses a line; a WR_FULL and a WR_PTL are answered at once, and
their tag is free again when the CMP can leave, a WB_FULL keeps its tag until it is ordered. Memory has not changed yet. -/
def Obligations.WriteAccepted : Prop :=
  ∀ (s : State) (l : Fin 16) (h : Req) (slots : List MsgSlot) (op : BitVec 6) (c : Instr), s.tablesWf = true →
    (op, c) ∈ [(opWrFull, Instr.wrFull l h slots), (opWrPtl, .wrPtl l h slots), (opWbFull, .wbFull l h slots)] →
    let p := l.val * 64 + h.stream.toNat
    let ps := reqParts op h
    let es := s.layEnts op h slots s.arrival
    let cmp : Msg := ⟨rspHdr opCmp h.stream.toNat h.tc.toNat h.tag stOk grI, []⟩
    s.canEnter l.val h slots.length = true → s.laybyRoom p ps.length = true →
    (∀ e, es.head? = some e → (s.port p).mergeable e = false) → failures (s.enqCheck l.val p op h) = [] →
    ∃ t, exec c s = .next t ∧ t.port p = { s.port p with
        layby := (s.port p).layby ++ es, accepted := (s.port p).accepted + es.length } ∧
      (op ≠ opWbFull → s.bit rIntrRoute 10 = false → (s.link l.val).canSend cmp = true → (s.link l.val).classClear cmp = true →
        (t.link l.val).reqTags = (s.link l.val).reqTags) ∧
      (op = opWbFull → (t.link l.val).reqTags = (s.link l.val).reqTags ++ [h.tag.toNat] ∧
        (t.link l.val).wbOpen = (s.link l.val).wbOpen ++ [(h.tag.toNat, lineOf h.addr)]) ∧
      (∀ j, j ≠ p → t.port j = s.port j) ∧ (∀ j, t.queue j = s.queue j) ∧ t.home = s.home ∧
      t.sto.frames = s.sto.frames ∧ t.mem = s.mem ∧ t.cry = s.cry

/-- WR_COND and FENCE (R143, R149): a conditional store takes a queue entry and the lay-by entry that holds its data; a FENCE
takes a queue entry and is from then on ahead of every later request of its port. -/
def Obligations.CondAndFenceQueued : Prop :=
  ∀ (s : State) (l : Fin 16) (h : Req) (slots : List MsgSlot), s.tablesWf = true →
    let p := l.val * 64 + h.stream.toNat
    let q := queueOf p h.tc.toNat
    let a := h.addr.toNat
    let n := h.sizeM1.toNat + 1
    (s.canEnter l.val h slots.length = true → s.poolRoom p 1 = true → s.laybyRoom p 1 = true →
      failures (s.enqCheck l.val p opWrCond h) = [] →
      ∃ t e, exec (.wrCond l h slots) s = .next t ∧ e.id = s.arrival ∧ e.op = opWrCond ∧
        t.queue q = ⟨(s.queue q).ents ++ [e], (s.queue q).answers ++ [mkAns s.arrival opWrCond h false]⟩ ∧
        (t.port p).layby = (s.port p).layby ++ [mkLay s.arrival opWrCond h slots false a n .mem] ∧
        (t.port p).rsv = (s.port p).rsv ∧ (∀ j, j ≠ q → t.queue j = s.queue j) ∧ (∀ j, j ≠ p → t.port j = s.port j) ∧
        t.home = s.home ∧ t.mem = s.mem) ∧
    (s.canEnter l.val h 0 = true → s.poolRoom p 1 = true → (s.port p).layby = [] → failures (s.enqCheck l.val p opFence h) = [] →
      ∃ t e, exec (.fence l h) s = .next t ∧ e.id = s.arrival ∧ e.op = opFence ∧
        t.queue q = ⟨(s.queue q).ents ++ [e], (s.queue q).answers ++ [mkAns s.arrival opFence h false]⟩ ∧
        t.port p = { s.port p with fences := (s.port p).fences ++ [s.arrival] } ∧
        (∀ j, j ≠ q → t.queue j = s.queue j) ∧ (∀ j, j ≠ p → t.port j = s.port j) ∧ t.home = s.home ∧ t.mem = s.mem)

/-- A write outside what its access domain permits (R263, R264): CRY_ALARM bit 0 is set with the port and the address, and
nothing of the write enters the device: no lay-by entry, no queue entry, no home slot, no stored frame or DRAM line. In
the stop state every request is answered HALTED without entering a queue (R341). What a link may not send (R54, R72, R74):
a request on a stream beyond `stream_cnt`, with a tag in use, or after DETACH_REQ quarantines the link with LNK_ERR bit 5;
one that overruns the tolls with bit 6. -/
def Obligations.RequestsRefused : Prop :=
  (∀ (s : State) (l : Fin 16) (h : Req) (slots : List MsgSlot) (a : Nat), s.tablesWf = true →
     let p := l.val * 64 + h.stream.toNat
     s.canEnter l.val h slots.length = true → failures (s.enqCheck l.val p opWrFull h) = [(.domain, a)] →
     ∃ t, exec (.wrFull l h slots) s = .next t ∧ t.bit rCryAlarm 0 = true ∧ t.cry.alarmPort = p ∧
       t.cry.alarmNoPort = false ∧ t.cry.alarmAddr = BitVec.ofNat 40 a ∧ (∀ j, t.port j = s.port j) ∧
       (∀ j, t.queue j = s.queue j) ∧ t.home = s.home ∧ t.sto.frames = s.sto.frames ∧ t.mem = s.mem ∧
       t.cry.keys = s.cry.keys) ∧
  (∀ (s : State) (l : Fin 16) (h : Req), s.tablesWf = true → s.saf.safe = .stop →
     let k := s.link l.val
     let q := queueOf (l.val * 64 + h.stream.toNat) h.tc.toNat
     k.state = .active → k.detaching = false → h.stream.toNat ≤ k.streamCntM1 → h.tag.toNat ∉ k.reqTags → k.held = [] →
     k.rxHeld.req + k.rxFreed.req + 1 ≤ 480 → s.votesOk (s.votedUsed usesDomains) = true →
     ∃ t, exec (.rdShared l h) s = .next t ∧
       t.queue q = ⟨(s.queue q).ents, (s.queue q).answers ++ [(mkAns s.arrival opRdShared h false).giveUp stHalted]⟩ ∧
       (∀ j, j ≠ q → t.queue j = s.queue j) ∧ t.home = s.home ∧ t.mem = s.mem) ∧
  (∀ (s : State) (l : Fin 16) (h : Req), (s.link l.val).state = .active →
     let k := s.link l.val
     ((k.detaching = true ∨ k.streamCntM1 < h.stream.toNat ∨ h.tag.toNat ∈ k.reqTags) →
       exec (.rdShared l h) s = .next (s.quarantine l.val 5).norm) ∧
     (k.detaching = false → h.stream.toNat ≤ k.streamCntM1 → h.tag.toNat ∉ k.reqTags →
       480 < k.rxHeld.req + k.rxFreed.req + 1 → exec (.rdShared l h) s = .next (s.quarantine l.val 6).norm))

/-- The pushes that wait in a link's receive buffer (R80, R81): those that no earlier one blocks are tried again, the lower
port first, then the lower traffic class; a read alone in the buffer with room for it enters its queue and leaves the
buffer. Waiting requests go on (R93, R103, R106, R107): the head of a free line's chain is ordered; held requests of a
filter set are retried in order of their first attempt; a parked miss takes the port's free token and starts its read.
Prefetches (R171 to R173): one that waits enters its slice with a token of its port or of the shared pool; one that has
waited too long is dropped. -/
def Obligations.WaitingGoOn : Prop :=
  (∀ (s : State) (l : Fin 16), s.live = true →
     (∀ e, (s.link l.val).held = [e] → exec (.enqueueRetry l) s = .next (s.tryHeld l.val e).norm) ∧
     (∀ a b, (s.link l.val).held = [a, b] → a.blocks b = true → exec (.enqueueRetry l) s = .next (s.tryHeld l.val a).norm) ∧
     (∀ a b, (s.link l.val).held = [a, b] → a.blocks b = false →
       b.h.stream.toNat * 8 + b.h.tc.toNat < a.h.stream.toNat * 8 + a.h.tc.toNat →
       exec (.enqueueRetry l) s = .next ((s.tryHeld l.val b).tryHeld l.val a).norm) ∧
     (∀ e, (s.link l.val).held = [e] → e.op = opRdShared → e.crossed = false → s.saf.safe = .normal → s.power.boot = .run →
       (∀ j, j < 16 → j ≠ l.val → (s.link j).held = []) → s.votesOk (s.votedUsed usesDomains) = true →
       let p := l.val * 64 + e.h.stream.toNat
       let q := queueOf p e.h.tc.toNat
       s.poolRoom p 1 = true → (s.port p).layby = [] → failures (s.enqCheck l.val p opRdShared e.h) = [] →
       ∃ t x, exec (.enqueueRetry l) s = .next t ∧ (t.link l.val).held = [] ∧ x.id = e.id ∧ x.op = opRdShared ∧
         t.queue q = ⟨(s.queue q).ents ++ [x], (s.queue q).answers ++ [mkAns e.id opRdShared e.h false]⟩ ∧
         (∀ j, j ≠ q → t.queue j = s.queue j) ∧ t.home = s.norm.home)) ∧
  ((∀ (s : State) (line : BitVec 30) (k : Nat) (r : List Nat) (t : Slot), s.chain line.toNat = k :: r →
     s.txOpen line.toNat = false → s.victimOf line.toNat = none → (s.setChain line.toNat r).slot k = some t →
     exec (.waitChainAdvance line) s =
       .next (((s.setChain line.toNat r).letIn k { t with phase := .lookup }).settle).norm) ∧
   (∀ (s : State) (slice : Fin 8) (set : Fin 256), s.admits = true → exec (.filterRetry slice set) s =
     .next ((forEach (fun h s => s.retryOne h) (s.home.heldSet.filter (fun h => h.1 == slice.val * 256 + set.val)) s).settle).norm) ∧
   (∀ (s : State) (port : Fin 1024) (k : Nat) (r : List Nat) (t : Slot), (s.port port.val).missToken = none →
     (s.port port.val).parked = k :: r → s.slot k = some t → exec (.missTokenTake port) s =
     .next (((s.setPort port.val { s.port port.val with missToken := some k, parked := r }).setSlot k
       (some { t with dram := .reading })).dramReadIssue k t.line).norm)) ∧
  (∀ (s : State) (port : Fin 1024) (y : PfReq) (r : List PfReq), (s.port port.val).pfq = y :: r →
     (exec (.prefetchExpire port) s = .next ((s.setPort port.val { s.port port.val with pfq := r }).count 0x2F
       (y.attr port.val)).norm) ∧
     (∀ x u, s.admits = true → s.offline = false → (s.inletLinks (sliceOf y.line)) = [] →
       s.wins (730 + sliceOf y.line) 1024 (s.pfCands (sliceOf y.line)) (port.val, 0) = true →
       s.takeSlot (sliceOf y.line) .prefetch = some x → x.2.pfToken port.val = some u → exec (.prefetchIssue port) s =
       .next ((((u.setPort port.val { u.port port.val with pfq := r }).granted (730 + sliceOf y.line) 1024 port.val).count 0x2E
         (y.slot port.val).attr).register x.1 (y.slot port.val)).settle.norm))

/-- Merging (R87): a write to the line of the youngest entry changes that entry's written bytes and mask and adds no entry;
every byte reads as the new write where the new mask has it and as before elsewhere. -/
def Obligations.LaybyMerge : Prop :=
  ∀ (u : Port) (e : LbEnt), u.mergeable e = true → ∃ y rest, u.layby = rest ++ [y] ∧
    (u.merge e).layby.length = u.layby.length ∧ (u.merge e).layby.take rest.length = rest ∧
    ∃ z, (u.merge e).layby = rest ++ [z] ∧ z.line = y.line ∧ z.id = y.id ∧ z.mask = y.mask ||| e.mask ∧
      z.data = mergeLine y.data e.data e.mask ∧ (u.merge e).accepted = u.accepted + 1 ∧
      (u.merge e).merged = u.merged + 1

/-- The head of a queue (R78, R83, R92, R142, R143, R376): a request refused at enqueue is answered BUS_ERR; a FENCE enters
its port's idle fence logic; a control space read that wins its roundabout reads its register; a memory read that the
lay-by holds is forwarded; another memory request that wins its link's arbiter and the slice's inlet goes to its home
slice, both pointers moving past it. A push that waits for the same queue then takes the entry freed (R85). -/
def Obligations.QueueDispatched : Prop :=
  ∀ (s : State) (port : Fin 1024) (tc : Fin 8) (e : QEnt) (r : List QEnt),
    let q := queueOf port.val tc.val
    let c : Instr := .queueDispatch port tc
    (s.queue q).ents = e :: r → s.admits = true →
    (e.busErr = true → exec c s =
      .next (((s.setQueue q { s.queue q with ents := r }).answer q e.id e.part (badRes stBusErr)).refilled s q).norm) ∧
    (e.busErr = false → e.op = opFence → (s.port port.val).fence = none → (s.port port.val).fenced e.id = false →
      s.slotRoom port.val = true →
      exec c s = .next (((s.setQueue q { s.queue q with ents := r }).setPort port.val { s.port port.val with
        fence := some ⟨e.id, BitVec.ofNat 3 q, e.tag, e.priv⟩ }).refilled s q).norm) ∧
    (e.busErr = false → e.op ≠ opFence → regionOf e.addr = .control → (s.port port.val).fenced e.id = false →
      s.slotRoom port.val = true → s.wins 700 1024 s.controlCands (port.val, tc.val) = true →
      exec c s = .next ((((s.granted 700 1024 port.val).popHead q).ctlRead (ctlOffset e.addr) (q, e.id, offOf e.addr)).refilled
        s q).norm) ∧
    (e.busErr = false → e.op ≠ opFence → regionOf e.addr = .device → (s.port port.val).fenced e.id = false →
      s.slotRoom port.val = true → ∀ l, e.peer = some l → s.wins (600 + l) 1024 (s.targetCands l) (port.val, tc.val) = true → exec c s =
        .next (((((s.granted (600 + l) 1024 port.val).popHead q).passTarget l port.val tc.val opRdOnce e.priv e.id e.addr
          e.size []).getD s).refilled s q).norm) ∧
    (e.busErr = false → e.op ≠ opFence → regionOf e.addr = .memory → ∀ u, s.tryForward q = some u →
      exec c s = .next (u.refilled s q).norm) ∧
    (e.busErr = false → e.op ≠ opFence → regionOf e.addr = .memory → s.tryForward q = none → s.headEligible q e = true →
      let l := q / 512
      let slice := sliceOf (lineOf e.addr)
      s.wins (l * 8 + slice) 512 (s.linkHeads l slice) (q % 512, 0) = true → s.wins (200 + slice) 16 (s.inletLinks slice) (l, 0) = true →
      exec c s = .next ((((s.granted (l * 8 + slice) 512 (q % 512)).granted (200 + slice) 16 l).sendFirst q e).refilled s q).norm)

/-- The head of a lay-by (R83, R85, R86, R88, R89): a control space write is applied to its register and its entry released; a
device-region write goes to its target; a memory write takes a slot of the write pool and registers, and its entry stays
until it is ordered. -/
def Obligations.LaybyIssued : Prop :=
  ∀ (s : State) (port : Fin 1024) (e : LbEnt), let p := port.val
    let fill := fun (t : State) => forEach (fun tc t => t.refilled s (queueOf p tc)) (List.range 8) t
    s.live = true → s.layHead p = some e → e.ecc = .clean →
    (e.dest = .control → s.wins 700 1024 s.controlCands (p, e.tc.toNat) = true → exec (.laybyIssue port) s =
      .next (fill ((((s.granted 700 1024 p).setPort p ((s.port p).issueHead e)).layRelease p e).ctlWrite (ctlOffset e.addr)
        (BitVec.ofNat 32 (lineNat e.data (offOf e.addr) 4)))).norm) ∧
    (∀ l, e.dest = .peer l → s.wins (600 + l) 1024 (s.targetCands l) (p, e.tc.toNat) = true →
      let g := (s.granted (600 + l) 1024 p).setPort p ((s.port p).issueHead e)
      exec (.laybyIssue port) s =
        .next (fill ((g.passTarget l p e.tc.toNat e.op e.priv e.id e.addr e.size e.slots).getD s)).norm) ∧
    (e.dest = .mem → (e.op = opWrFull ∨ e.op = opWrPtl) → s.layEligible p e = true →
      s.votesOk (s.votedUsed usesHome) = true → s.saf.safe ≠ .stop →
      let l := p / 64
      let slice := sliceOf e.line
      s.wins (300 + l * 8 + slice) 64 (s.drainCands l slice) (p % 64, 0) = true →
      s.wins (500 + slice) 16 (s.drainLinks slice) (l, 0) = true →
      ∀ r, ((((s.granted (300 + l * 8 + slice) 64 (p % 64)).granted (500 + slice) 16 l).setPort p
        ((s.port p).issueHead e))).takeSlot slice .write = some r →
        exec (.laybyIssue port) s = .next (fill (r.2.register r.1 (laySlot p e)).settle).norm)

/-- Every roundabout (R82): the pointer is 0 after every reset; the grant goes to the competitor whose index gives the
smallest (i − P) mod N, equal distances meaning equal indices, among which the lowest secondary index wins; somebody is
granted as long as somebody competes; after a grant to i the pointer is (i + 1) mod N, and without a grant it keeps its
value. -/
def Obligations.RoundaboutRule : Prop :=
  (∀ k, State.reset.arb k = 0 ∧ ∀ s : State, s.cold.arb k = 0 ∧ ∀ soft, (s.warm soft).arb k = 0) ∧
  (∀ (n ptr : Nat) (cands : List (Nat × Nat)), 0 < n → (∀ c ∈ cands, c.1 < n) →
    (rbWinner n ptr cands = none ↔ cands = []) ∧
    (∀ w, rbWinner n ptr cands = some w → w ∈ cands ∧
      (∀ c ∈ cands, ((w.1 : Int) - ptr) % n ≤ ((c.1 : Int) - ptr) % n) ∧ (∀ c ∈ cands, c.1 = w.1 → w.2 ≤ c.2)) ∧
    (∀ c ∈ cands, ∀ d ∈ cands, ((c.1 : Int) - ptr) % n = ((d.1 : Int) - ptr) % n → c.1 = d.1)) ∧
  (∀ (s : State) (a n i : Nat) (cands : List (Nat × Nat)) (c : Nat × Nat), s.tablesWf = true →
    (s.wins a n cands c = true ↔ rbWinner n (s.arb a) cands = some c) ∧
    (s.granted a n i).arb a = (i + 1) % n ∧ (∀ b, b ≠ a → (s.granted a n i).arb b = s.arb b) ∧
    (∀ b, s.fcPass.arb b = s.arb b))

/-- The home slice of an address (R101): bit j is the XOR of the region number's bits g[i] with i mod 3 = j, g being address
bits [36:12]; all 32 lines of a region share one slice. -/
def Obligations.HomeSliceOfAddress : Prop :=
  (∀ (a : Addr) (j : Nat), j < 3 → (sliceOf (lineOf a)).testBit j =
    ((List.range 25).filter (fun i => i % 3 == j)).foldl (fun x i => x ^^ a.getLsbD (12 + i)) false) ∧
  (∀ a : Addr, sliceOf (lineOf a) < 8) ∧
  (∀ a b : Addr, a.toNat / 4096 = b.toNat / 4096 → sliceOf (lineOf a) = sliceOf (lineOf b))

/-- Answers leave in the order of their queue (R54, R137, R142): the oldest answer, when it is complete, no earlier snoop
waits behind it and its link can take it, leaves as one message and frees its tag; an incomplete one holds the queue, and
one that its link cannot take waits. The end of a FENCE (R144, R145): it is answered only when every earlier request of
its port is answered and every earlier write released, with FENCE_LOSS if the port's loss flag is set, HALTED in a halted
domain, OK otherwise; the flag is cleared by the FENCE that reports it. -/
def Obligations.AnswersInOrder : Prop :=
  (∀ (s : State) (port : Fin 1024) (tc : Fin 8) (a : Ans) (r : List Ans), let q := queueOf port.val tc.val
     let l := q / 8 / 64
     let m := a.msg (q / 8) (q % 8)
     s.tablesWf = true → (s.queue q).answers = a :: r → (s.link l).wbDone = [] →
     (a.ready = false → exec (.answerSend port tc) s = .next s.norm) ∧
     (a.ready = true → s.snoopsFirst l a.order = true → exec (.answerSend port tc) s = .next s.norm) ∧
     (a.ready = true → s.snoopsFirst l a.order = false → (s.link l).canSend m = false →
       exec (.answerSend port tc) s = .next (s.wakeLink l).norm) ∧
     (a.ready = true → s.snoopsFirst l a.order = false → (s.link l).canSend m = true → (s.link l).classClear m = true →
       let at_ : Attr := { req := some (q / 8, a.priv.toNat, q % 8), addr := some a.addr.toNat }
       let u := s.setQueue q { s.queue q with answers := r }
       exec (.answerSend port tc) s = .next ((if a.status == stPoison then u.count 0x38 at_
         else if a.status == stBusErr then u.count 0x3B at_ else u).sendMsg l m).norm) ∧
     (a.ready = true → s.snoopsFirst l a.order = false → (s.link l).canSend m = true → (s.link l).classClear m = true →
       s.bit rIntrRoute 10 = false → ∃ t, exec (.answerSend port tc) s = .next t ∧ (t.queue q).answers = r ∧
         (t.link l).reqTags = (s.link l).reqTags.filter (· != a.tag.toNat) ∧ .msg l m (s.link l).txAck ∈ t.out)) ∧
  (∀ (s : State) (port : Fin 1024) (f : FenceRec), (s.port port.val).fence = some f →
     (s.fenceReady port.val f.id = false → exec (.fenceComplete port) s = .next s.norm) ∧
     (s.fenceReady port.val f.id = true → s.tablesWf = true → ∃ t, exec (.fenceComplete port) s = .next t ∧
       let q := queueOf port.val f.tc.toNat
       let halted := s.saf.safe == .halted
       let st := if halted then stHalted else if (s.port port.val).lossFlag then stFenceLoss else stOk
       t.port port.val = { s.port port.val with
         fence := none, fences := (s.port port.val).fences.filter (· != f.id)
         lossFlag := (s.port port.val).lossFlag && halted } ∧
       t.queue q = { s.queue q with
         answers := (s.queue q).answers.map (fun a => if a.id == f.id then a.fill 0 ⟨st, grI, 0, 0⟩ else a) } ∧
       (∀ j, j ≠ port.val → t.port j = s.port j) ∧ (∀ j, j ≠ q → t.queue j = s.queue j) ∧ t.home = s.home ∧ t.mem = s.mem))

/-- Peer device windows (R69, R70, R145): a CMP ends a write and releases its lay-by entry, a DATA ends a read and fills its
answer with the partner's status and bytes; an access that times out is answered BUS_ERR if it is a read and is a lost
write (class P, LNK_ERR bit 10, loss flag and count) if it is a write. -/
def Obligations.PeerAccessEnds : Prop :=
  ∀ (s : State) (l : Fin 16) (r : Rsp) (slots : List MsgSlot) (d : DevTag),
    let k := s.link l.val
    k.state = .active → r.stream.toNat ≤ k.streamCntM1 → r.status.toNat ≤ 5 →
    (s.tablesWf = true → s.devAccess l.val r false = some d → d.timedOut = false →
      k.rxHeld.rsp + k.rxFreed.rsp + 1 ≤ 64 → ∃ t, exec (.cmp l r) s = .next t ∧
      t.port d.port = (s.port d.port).release d.ansId ∧ (∀ j, j ≠ d.port → t.port j = s.port j) ∧
      (t.link l.val).devTags = k.devTags.filter (fun x => x.tag != d.tag) ∧ t.queues = s.queues ∧ t.home = s.home) ∧
    (s.tablesWf = true → s.devAccess l.val r true = some d → d.timedOut = false →
      k.rxHeld.dat + k.rxFreed.dat + (1 + slots.length) ≤ 144 → ∃ t, exec (.data l r slots) s = .next t ∧
      t.queue (queueOf d.port d.tc) = { s.queue (queueOf d.port d.tc) with
        answers := (s.queue (queueOf d.port d.tc)).answers.map (fun a => if a.id == d.ansId then
          a.fill 0 ⟨r.status, grI, slotsFrom (d.addr % 128 / 16) slots, 0⟩ else a) } ∧
      (t.link l.val).devTags = k.devTags.filter (fun x => x.tag != d.tag) ∧ t.ports = s.ports ∧ t.home = s.home) ∧
    (∀ tag : BitVec 12, k.devTags.find? (fun x => x.tag == tag.toNat && !x.timedOut) = some d → k.txWait = [] →
      let u := s.setLink l.val { k with
        devTags := k.devTags.map (fun x => if x.tag == tag.toNat then { x with timedOut := true } else x) }
      (d.isRead = true → exec (.targetTimeout l tag) s =
        .next (u.answer (queueOf d.port d.tc) d.ansId 0 (badRes stBusErr)).norm) ∧
      (d.isRead = false → exec (.targetTimeout l tag) s = .next ((u.setPort d.port
        (((s.port d.port).release d.ansId).lose)).err (rLnkErr l.val) 1 10 .p (some d.port) d.addr).norm))

/-- Snoop answers (R113, R114, R122, R126): a SNP_ACK with a state the snoop allows is taken as that link's last word and the
transaction goes on; one with a state it does not allow is a claim and quarantines the link; data for another line is a
claim too. No answer in time makes the agent dead and quarantines its link. Recovery (R127): with no region of the slice
listed, nothing is taken up. The states that an answer to a snoop may leave (R113, R114): never M or E; an invalidating
snoop leaves I only; data that is no writeback leaves S. -/
def Obligations.SnoopAnswers : Prop :=
  (∀ (s : State) (l : Fin 16) (r : Rsp) (slots : List MsgSlot) (key : Nat) (t : Slot), let k := s.link l.val
     (k.state = .active → r.stream.toNat ≤ k.streamCntM1 → r.status.toNat ≤ 5 → s.snoopSlot l.val r = some (key, t) →
       k.rxHeld.rsp + k.rxFreed.rsp + 1 ≤ 64 → exec (.snpAck l r) s = .next ((s.freeSlots l.val 2 1).snpAck l.val r).norm) ∧
     (k.state = .active → r.stream.toNat ≤ k.streamCntM1 → r.status.toNat ≤ 5 → s.snoopSlot l.val r = some (key, t) →
       k.rxHeld.dat + k.rxFreed.dat + (1 + slots.length) ≤ 144 →
       exec (.snpData l r slots) s = .next ((s.freeSlots l.val 3 (1 + slots.length)).snpData l.val r slots).norm) ∧
     (s.snoopSlot l.val r = some (key, t) → stateAllowed t.snpOp false false r.state = true →
       let u := (ringAll (linkStop l.val) 1 [(0, [homeStop (key / 512)], 1)] s).snoopClosed l.val key t
       ∀ t', u.slot key = some t' →
       s.snpAck l.val r = (u.ackOne key t' l.val (r.state == grS) false).settle) ∧
     (s.snoopSlot l.val r = some (key, t) → stateAllowed t.snpOp false false r.state = false →
       s.snpAck l.val r = s.claim l.val 2 t.line) ∧
     (∀ slot : Fin 4096, s.slot slot.val = some t → t.snpOut.getLsbD l.val = true → exec (.snoopTimeout slot l) s =
       .next (((({ s with home := { s.home with dead := s.home.dead ||| linkBit l.val } }).err rHomErr 3 0 .info
         (linkPort l.val) (lineAddr t.line)).raise 9 l.val).loseLink l.val .quarantine).norm) ∧
     (∀ slice : Fin 8, exec (.deadRegionRecovery slice) s = .next ((recoverUp slice.val 16 s).settle).norm)) ∧
  (∀ (s : State) (slice n : Nat), s.home.recovering = [] → recoverUp slice n s = s) ∧
  (∀ (op : BitVec 6) (isData wb : Bool) (st : BitVec 2), stateAllowed op isData wb st = true →
     st ≠ grM ∧ st ≠ grE ∧ (invalidates op = true → st = grI) ∧
     (invalidates op = false → isData = true → wb = false → st = grS))

/-- What the store and the channels bring back (R93, R123, R161, R163, R242, R247): a frame read goes to the slot that reads
its frame, a frame write ends, a DRAM read that the channel has issued leaves its queue and frees the port's miss token,
an acknowledged write leaves the channel and the slot's buffer; after each the transactions go on as far as they can. Link
ECC over up to three reads of a line (R247): a read has two bursts, and fails when one of them is uncorrectable; the line
is poisoned only when all three reads fail; a read that passes ends the rereads, and every single-bit error is corrected
and counted. -/
def Obligations.FillsReturn : Prop :=
  (∀ (s : State) (slot : Fin 4096) (t : Slot), s.slot slot.val = some t → s.votesOk (s.votedUsed usesHome) = true →
     s.saf.safe ≠ .stop →
     (∀ e, t.fuse = .reading → exec (.frameReadDone slot e) s = .next (s.frameRead slot.val t e).settle.norm) ∧
     (∀ img, t.wrImg = some img → exec (.frameWriteDone slot) s = .next (s.frameWritten slot.val t img).settle.norm) ∧
     (∀ d, t.dram = .reading → s.cmdsIssued slot.val t.line false = true → exec (.dramReadReturn slot d) s =
       .next (s.dramReturn slot.val t d).settle.norm) ∧
     (∀ v, t.victims.find? (fun v => s.cmdsIssued slot.val v.line true) = some v → exec (.dramWriteAck slot) s =
       .next (((s.cmdsDone slot.val v.line true).updSlot slot.val (fun t =>
         { t with victims := t.victims.erase v })).settle).norm) ∧
     (∀ d, t.fuse ≠ .reading → t.dram ≠ .reading → exec (.dramReadReturn slot d) s = .next s.norm)) ∧
  (∀ d : DramIn, let o := burstOutcome d
     let bad := fun (a b : Burst) => a = .uncorrectable ∨ b = .uncorrectable
     (o.2.2 = true ↔ bad d.b1 d.u1 ∧ bad d.b2 d.u2 ∧ bad d.b3 d.u3) ∧
     (d.b1 = .pass → d.u1 = .pass → o = (0, false, false)) ∧
     (¬ bad d.b1 d.u1 → o = (burstFixed d.b1 + burstFixed d.u1, false, false)) ∧
     (o.2.1 = true ↔ bad d.b1 d.u1 ∧ o.2.2 = false))

/-! ### Store, parking and channels -/

/-- The age sweep (R167, R168, R179): with no tag parity error, the sixteenth advances, and every dirty line whose stamp
expires next, or every dirty line when more than seven eighths of the quota are dirty, is queued for write-back once.
Queued work of the store (R169, R194): the oldest write-back takes a maintenance slot and registers to clean its way; the
oldest owed rewrite is written when a new read of its frame, which nobody has open, still gives what was read, and falls
away when something has written the frame since. -/
def Obligations.AgeSweepAndStoreQueues : Prop :=
  (∀ s : State, s.live = true → s.votesOk (s.votedUsed usesHome) = true →
     let n := (s.wp.sixteenth + 1) % 16
     let u := { s with wp := { s.wp with sixteenth := n } }
     (∀ set, u.tagParity set = none) → exec (.ageSweepStart []) s = .next (State.norm
       (forEach (fun (e : Nat × Way) s =>
         if decide (7 * u.dirtyQuota < 8 * u.dirtyCnt) || e.2.stamp == (n + 1) % 16 then s.queueAge e.1 (wayLine e.1 e.2) else s)
         u.dirtyWays u))) ∧
  ((∀ (s : State) (q : WbReq) (r : List WbReq) (x : Nat × State), s.live = true →
     s.votesOk (s.votedUsed usesHome) = true → s.wp.wbq = q :: r →
     (s.way q.way).valid = true → wayLine q.way (s.way q.way) = q.line → (s.way q.way).dirty = true →
     ({ s with wp := { s.wp with wbq := r } }).takeSlot (sliceOf q.line) .maint = some x →
     exec (.waypointWriteback false) s = .next (((x.2.count 0x24 { addr := some (lineAddr q.line) }).register x.1
       { Slot.blank .writeBack .self q.line with todo := [.cleanWay q.way q.drop] }).settle).norm) ∧
   (∀ (s : State) (c : Correction) (r : List Correction) (e v : FrameErr), s.live = true →
     s.votesOk (s.votedUsed usesHome) = true → s.sto.corrections = c :: r → s.frameBusy noSlot c.key = false →
     (s.bypassed c.key = false → s.image c.key = c.read → c.verify = false → ∀ img u, s.bgRead c.key e false = .got img u →
       u.image c.key = c.read → u.bypassed c.key = false → exec (.correctionRewrite e v) s =
         .next (({ u with sto := { u.sto with corrections := r } }).writeFrame c.key c.image).norm) ∧
     (s.image c.key ≠ c.read → exec (.correctionRewrite e v) s =
       .next (State.norm { s with sto := { s.sto with corrections := r } }))) ∧
   (∀ (s : State) (e v : FrameErr), s.sto.corrections = [] → exec (.correctionRewrite e v) s = .next s.norm))

/-- Lane shift (R203): of the 8,193 slots of a segment one is the gap; frames keep their own slots apart, and a move takes one
frame into the gap and leaves all others where they were. -/
def Obligations.LaneShiftMapping : Prop :=
  ∀ a : Lane, a.start < 8192 → a.gap ≤ 8192 →
    (∀ f, f < 8192 → laneSlot a f ≤ 8192 ∧ laneSlot a f ≠ a.gap) ∧
    (∀ f g, f < 8192 → g < 8192 → laneSlot a f = laneSlot a g → f = g) ∧
    a.move.1 < 8192 ∧ laneSlot a a.move.1 = a.move.2.1 ∧ laneSlot a.after a.move.1 = a.move.2.2 ∧ a.move.2.2 = a.gap ∧
    (∀ f, f < 8192 → f ≠ a.move.1 → laneSlot a.after f = laneSlot a f)

/-- Background work on the store (R203, R204, R206, R208): a lane shift move whose source slot is closed moves nothing but the
gap and charges the budget; a retirement that is due begins into the lowest free spare; a resurfacing visit of a bypassed
frame only goes on. None of them runs while it may not. -/
def Obligations.StoreUpkeep : Prop :=
  (∀ (s : State) (die : Fin 8) (seg : Fin 512) (e : FrameErr), let n := die.val
    let m := (tget laneDef (s.die n).lanes seg.val).move
    let f := (seg.val * 8192 + m.1) * 8 + n
    s.votesOk (s.votedUsed usesHome) = true →
    (s.laneMay n seg.val = false → exec (.laneShiftMove die seg e) s = .next s.norm) ∧
    (s.laneMay n seg.val = true → s.frameBusy noSlot f = false → (s.die n).serve n ((s.die n).pseg seg.val) m.2.1 = none →
      exec (.laneShiftMove die seg e) s = .next (s.laneEnd n seg.val f voidFrame).norm) ∧
    (∀ img u, s.laneMay n seg.val = true → s.frameBusy noSlot f = false →
      ((s.die n).serve n ((s.die n).pseg seg.val) m.2.1).isSome = true → s.bgRead f e true = .got img u →
      ((u.die n).serve n ((s.die n).pseg seg.val) m.2.2).isSome = true →
      exec (.laneShiftMove die seg e) s = .next (u.laneEnd n seg.val f img).norm)) ∧
  (∀ (s : State) (die : Fin 8) (e : FrameErr) (seg : Nat) (r : List Nat), s.offline = false → s.live = true →
    s.votesOk (s.votedUsed usesHome) = true → (s.die die.val).retire = none → (s.die die.val).retireDue = seg :: r → (s.die die.val).closed.contains seg = false →
    ∀ x, ((s.retireBegin die.val seg).die die.val).retire = some x → x.spare ≠ closingSeg →
      exec (.retirementCopy die e) s = .next ((s.retireBegin die.val seg).retireCopy die.val x e).norm) ∧
  (∀ (s : State) (die : Fin 8) (e : FrameErr), let n := die.val
    s.votesOk (s.votedUsed usesHome) = true →
    (s.passMay n = false → exec (.resurfacingVisit die e) s = .next s.norm) ∧
    (s.passMay n = true → s.bypassed ((s.die n).passPos * 8 + n) = true →
      exec (.resurfacingVisit die e) s = .next (s.passNext n).norm) ∧
    (∀ img u, s.passMay n = true → s.bypassed ((s.die n).passPos * 8 + n) = false → (s.die n).rsReads ≠ 0 →
      (s.die n).rsWrites ≠ 0 → s.bgRead ((s.die n).passPos * 8 + n) e true = .got img u →
      frameEpoch img ≠ nextEpoch u.sto.epoch → exec (.resurfacingVisit die e) s =
        .next (((u.setDie n { u.die n with rsReads := (u.die n).rsReads - 1 }).count 0x2D {}).passNext n).norm))

/-- Line moves of a park and an unpark, the end of a resize and of a pave (R210, R220, R221, R222, R223, R224, R271, R273): a
move runs when its line's transaction is ordered, for a park, an unpark and the relocation of a moving slot; at most 32 of
a slot are in flight; a line on the spill list leaves it; a resize with nothing left takes its size; a pave sets its
granule's bit and takes up the next that waits. -/
def Obligations.ParkingMoves : Prop :=
  (∀ (s : State) (slot : Fin 1024) (line : Fin 16384) (e : FrameErr) (d : DramIn), let k := slot.val
    let x := (s.pslot k).region * 16384 + line.val
    let src := s.prk.slots.find? (fun e => e.2.pstate == .moving && e.2.target == some k)
    s.live = true → s.votesOk (s.votedUsed usesHome) = true → (s.pslot k).pstate = .parking →
    (∀ m, s.moveSlot k x = some m → src = none → exec (.parkLineMove slot line e d) s =
      .next ((s.parkLine m k line.val x e d).settle).norm) ∧
    (∀ m y, s.moveSlot k x = some m → src = some y → exec (.parkLineMove slot line e d) s =
      .next ((s.relocateLine m y.1 k line.val x e).settle).norm) ∧
    (s.moveSlot k x = none → exec (.parkLineMove slot line e d) s = .next s.norm)) ∧
  (∀ (s : State) (k : Nat) (p : PSlot), 32 ≤ s.moves k → s.moveStart k p = none) ∧
  (∀ (s : State) (slot : Fin 1024) (line : Fin 16384) (e : FrameErr), let k := slot.val
    let x := (s.pslot k).region * 16384 + line.val
    s.live = true → s.votesOk (s.votedUsed usesHome) = true → (s.pslot k).pstate = .unparking →
    (∀ m, s.moveSlot k x = some m → s.prk.spill.contains x = true → exec (.unparkLineMove slot line e) s =
      .next (State.settle { (s.moveEnd m).unparkMoved k line.val with
        prk := { ((s.moveEnd m).unparkMoved k line.val).prk with spill := serase x s.prk.spill } }).norm) ∧
    (∀ m, s.moveSlot k x = some m → s.prk.spill.contains x = false → exec (.unparkLineMove slot line e) s =
      .next ((s.unparkLine m k line.val x e).settle).norm) ∧
    (s.moveSlot k x = none → exec (.unparkLineMove slot line e) s = .next s.norm)) ∧
  (∀ (s : State) (n : Nat), s.live = true → s.prk.resize = some n → s.prk.resizeDue = [] → s.slotList = [] →
    s.resizeLines n = [] → exec .resizeDone s = .next (s.resizeEnd n).norm) ∧
  (∀ (s : State) (g : BitVec 21), s.live = true → s.cry.paving.contains g.toNat = true →
    exec (.paveDone g) s = .next (s.paveDone g.toNat).norm) ∧
  (∀ (s : State) (g : BitVec 21), s.cry.paving.contains g.toNat = false → exec (.paveDone g) s = .next s.norm)

/-- Refresh and RFM (R245, R246): one that falls due while a command waits is postponed, at most eight for a bank; a bank that
owes eight gets one; an idle bank gets the one due and all it owes, and as many more as the channel pulls in, up to eight
ahead; a refresh that was pulled in pays for one that falls due. RFM is issued only where the device requires it and the
rolling count has reached the threshold. What is left of a rolling activate count is a free value within the old count
(log entry 7). A channel between commands (R241, R250, R253): a queued write that has waited too long turns the channel to
writes; an idle row is precharged; an idle channel with all rows closed powers down, in Idle it goes to self-refresh; more
than 16 link ECC corrections in a tick start a retraining, logged as class C and counted; a retraining ends with new read
and write delays, free values, and what waited at the channel goes on. -/
def Obligations.ChannelUpkeep : Prop :=
  (∀ (s : State) (ch : Fin 16) (bank : Fin 32), let c := s.chan ch.val
     let owed := tget zeroDef c.owed bank.val
     let rowed := tget zeroDef c.rfmOwed bank.val
     c.pstate = .active → c.retraining = false →
     let ahead := tget zeroDef c.ahead bank.val
     (s.mem.trained = true → ahead = 0 → owed < 8 → exec (.refreshDue ch bank .busy) s = .next (s.setChan ch.val { c with
       owed := tset zeroDef c.owed bank.val (owed + 1) }).norm) ∧
     (s.mem.trained = true → ahead = 0 → owed = 8 → exec (.refreshDue ch bank .busy) s =
       .next ((s.emitTimes (.refresh ch.val bank.val) 1).rollBack ch.val bank.val).norm) ∧
     (∀ n : Fin 9, s.mem.trained = true → ahead = 0 → exec (.refreshDue ch bank (.idle n)) s =
       .next ((((s.setChan ch.val { c with owed := tset zeroDef c.owed bank.val 0 }).emitTimes (.refresh ch.val bank.val)
         (owed + 1)).rollBack ch.val bank.val).pullIn ch.val bank.val n.val).norm) ∧
     (s.mem.trained = true → ahead ≠ 0 → exec (.refreshDue ch bank .busy) s = .next (s.setChan ch.val { c with
       ahead := tset zeroDef c.ahead bank.val (ahead - 1) }).norm) ∧
     (∀ b, s.rfmReached ch.val bank.val = false → exec (.rfmDue ch bank b) s = .next s.norm) ∧
     (s.rfmReached ch.val bank.val = true → rowed < 8 → exec (.rfmDue ch bank true) s = .next (s.setChan ch.val { c with
       rfmOwed := tset zeroDef c.rfmOwed bank.val (rowed + 1) }).norm) ∧
     (s.rfmReached ch.val bank.val = true → exec (.rfmDue ch bank false) s = .next (((s.setChan ch.val { c with
       rfmOwed := tset zeroDef c.rfmOwed bank.val 0 }).emitTimes (.rfm ch.val bank.val) (rowed + 1)).rollBack ch.val bank.val).norm)) ∧
  (∀ (s : State) (ch : Fin 16) (bank : Fin 32), let c := s.chan ch.val
     (c.writes ≠ [] → exec (.writeAgeSwitch ch) s = .next ((s.setChan ch.val { c with draining := true }).chanGo ch.val).norm) ∧
     (∀ row, tget noneDef c.rows bank.val = some row → exec (.rowIdleClose ch bank) s =
       .next ((s.setChan ch.val { c with rows := tset noneDef c.rows bank.val none }).emit (.precharge ch.val bank.val)).norm) ∧
     (c.pstate = .active → c.idle = true → c.rows = [] → s.fld rMemPwr 0 16 ≠ 0 →
       exec (.powerDownEntry ch) s = .next (s.setChan ch.val { c with pstate := .powerDown }).norm) ∧
     (s.power.idle = true → c.idle = true → (c.pstate = .active ∨ c.pstate = .powerDown) → s.fld rMemPwr 16 16 ≠ 0 →
       exec (.selfRefreshEntry ch) s = .next ((s.prechargeAll ch.val).setChan ch.val
         { (s.prechargeAll ch.val).chan ch.val with pstate := .selfRefresh }).norm) ∧
     (c.retraining = false → 16 < c.eccTick → exec (.channelRetrain ch) s = .next ((s.setChan ch.val { c with
       retraining := true, retrainCnt := satInc c.retrainCnt 255, eccTick := 0 }).err rMemErr 7 4 .c none 0).norm) ∧
     (c.eccTick ≤ 16 → exec (.channelRetrain ch) s = .next s.norm) ∧
     (c.retraining = true → exec (.channelRetrainDone ch) s = .next ((({ s with free := s.free + 2 } : State).setChan ch.val { c with
       retraining := false, rdqDelay := Config.freeNat s.free, wdqDelay := Config.freeNat (s.free + 1) }).chanGo ch.val).norm) ∧
     (c.retraining = false → exec (.channelRetrainDone ch) s = .next s.norm))

/-! ### DMA -/

/-- A descriptor starts in the order of its list (R278, R281, R286): NOP and LINK complete at once, a LINK goes on at the
address it names; a COPY whose ranges are apart, a FILL, CLEAN, INVAL and CLEAN_INVAL with a length begin to issue; the
descriptor is the channel's current one with the access domain of DMA_CH_CTRL. The operations of the persistent channels
(R219 to R221, R273, R277, R286): on channels 48 to 63 a PARK that nothing refuses makes its slot PARKING, an UNPARK of a
PARKED slot makes it UNPARKING, a PAVE asks for the granules of its range; on channels 0 to 47 each completes REFUSED with
reason 1. -/
def Obligations.DmaDescriptorStarts : Prop :=
  (∀ (s : State) (ch : Fin 64) (d : Desc) (r : List Desc), let n := ch.val
     (s.dch n).cur = none → (s.dch n).descs = d :: r → (s.dch n).state = .run → s.dmaOpen = true →
     s.votesOk (s.votedUsed (usesDma n)) = true →
     let u := s.dmaTakeDesc n d
     (d.op = 0x0 → exec (.nop ch) s = .next (u.dmaComplete n 0 0).norm) ∧
     (d.op = 0xf → exec (.link ch) s = .next (u.dmaComplete n 0 0).norm) ∧
     (d.op = 0x1 ∨ d.op = 0x2 → d.length = 0 → exec (if d.op = 0x1 then .copy ch else .fill ch) s = .next (u.dmaComplete n 0 0).norm) ∧
     (d.op = 0x1 → d.length ≠ 0 → d.overlaps = false → exec (.copy ch) s = .next (u.dmaRun n d).norm) ∧
     (d.op = 0x1 → d.length ≠ 0 → d.overlaps = true → exec (.copy ch) s = .next (u.dmaComplete n 3 6).norm) ∧
     (d.op = 0x2 → d.length ≠ 0 → exec (.fill ch) s = .next (u.dmaRun n d).norm) ∧
     (d.op = 0x6 → d.length ≠ 0 → exec (.clean ch) s = .next (u.dmaRun n d).norm) ∧
     (d.op = 0x7 → d.length ≠ 0 → exec (.inval ch) s = .next (u.dmaRun n d).norm) ∧
     (d.op = 0x8 → d.length ≠ 0 → exec (.cleanInval ch) s = .next (u.dmaRun n d).norm)) ∧
  (∀ (s : State) (ch : Fin 64) (d : Desc) (r : List Desc), let n := ch.val
     (s.dch n).cur = none → (s.dch n).descs = d :: r → (s.dch n).state = .run → s.dmaOpen = true →
     s.votesOk (s.votedUsed (usesDma n)) = true →
     let u := s.dmaTakeDesc n d
     (48 ≤ n → d.op = 0x4 → u.parkReason d = 0 →
       u.dmaCheck (u.dch n).ad.toNat (regionBase (d.src.toNat / 2 ^ 21)) (2 ^ 21) false true = none →
       exec (.park ch) s = .next (u.parkBegin (d.src.toNat / 2 ^ 21) (d.param.toNat % 1024)).norm) ∧
     (48 ≤ n → d.op = 0x5 → u.unparkReason d = 0 →
       u.dmaCheck (u.dch n).ad.toNat (regionBase (s.pslot (d.param.toNat % 1024)).region) (2 ^ 21) false true = none →
       exec (.unpark ch) s = .next (u.setPslot (d.param.toNat % 1024)
         { s.pslot (d.param.toNat % 1024) with pstate := .unparking, moved := [], next := 0, thenClose := false }).norm) ∧
     (48 ≤ n → d.op = 0x3 → d.length ≠ 0 →
       exec (.pave ch) s = .next (paveRange n (u.dch n).ad.toNat d d.granules u).norm) ∧
     (n < 48 → d.op = 0x3 → exec (.pave ch) s = .next (u.dmaComplete n 3 1).norm) ∧
     (n < 48 → d.op = 0x4 → exec (.park ch) s = .next (u.dmaComplete n 3 1).norm) ∧
     (n < 48 → d.op = 0x5 → exec (.unpark ch) s = .next (u.dmaComplete n 3 1).norm))

/-- How a list is fetched and how a descriptor ends (R279, R285 to R289): a fetched line's descriptors join the list up to a
`last` or a LINK; a COPY or FILL ends with its read-back, a range operation when its last line is done, OK or POISON; a
channel told to stop with nothing in flight is STOPPED, a standard one with status STOPPED, in a descriptor also with that
descriptor's tag, counted as done, and the resume offset. -/
def Obligations.DmaDescriptorEnds : Prop :=
  ∀ (s : State) (ch : Fin 64), let n := ch.val
    let c := s.dch n
    (c.state = .idle → c.fetched = none → c.descs = [] → exec (.dmaDescriptorFetch ch) s = .next s.norm) ∧
    (exec (.dmaDescriptorFetch ch) s = .next ((((s.dmaArrive n).dmaFetchFail n).dmaReserved n).dmaFetch n).norm) ∧
    (∀ line, c.fetched = some (some line, c.fetchAddr) → ∀ i, i = c.fetchAddr % 128 / 32 →
      let all := (List.range (4 - i)).map (fun k => descOf line (i + k) (c.fetchAddr / 128 * 128 + 32 * (i + k)))
      (s.tablesWf = true → ((s.dmaArrive n).dch n).descs = c.descs ++ all.take ((all.takeWhile (fun d => !d.ends)).length + 1) ∧
        ((s.dmaArrive n).dch n).fetchAddr = (c.fetchAddr / 128 + 1) * 128 ∧ ((s.dmaArrive n).dch n).fetched = none)) ∧
    (∀ d, c.cur = some d → (d.op = 1 ∨ d.op = 2) → c.state.active = true → c.prog.inFlight = 0 → c.prog.halted = false →
      c.prog.badReason = 0 → c.prog.readBack = 2 → exec (.dmaReadbackDone ch) s =
        .next (s.dmaComplete n (if c.prog.poison then 1 else 0) 0).norm) ∧
    (∀ d, c.cur = some d → (d.op = 6 ∨ d.op = 7 ∨ d.op = 8) → c.state.active = true → c.prog.inFlight = 0 →
      c.prog.halted = false → c.prog.badReason = 0 → c.prog.readBack = 0 → rangeLines d.src.toNat d.length ≤ c.prog.nextWrite →
      exec (.dmaRangeDone ch) s = .next (s.dmaComplete n (if c.prog.poison then 1 else 0) 0).norm) ∧
    (∀ d, c.cur = some d → n < 48 → c.state = .stopping → c.fetchBusy = false → c.prog.inFlight = 0 → c.prog.halted = false →
      c.prog.badReason = 0 → c.prog.readBack = 0 → exec (.dmaStopComplete ch) s =
        .next ((s.setDch n { c with
          status := 5, reason := 0, lastTag := d.tag, doneCnt := c.doneCnt + 1, resume := c.prog.resumeAt d }).dmaStopped n).norm) ∧
    (c.cur = none → n < 48 → c.state = .stopping → c.fetchBusy = false → exec (.dmaStopComplete ch) s =
      .next ((s.setDch n { c with status := 5, reason := 0 }).dmaStopped n).norm) ∧
    (c.cur = none → 48 ≤ n → c.state = .stopping → c.fetchBusy = false → exec (.dmaStopComplete ch) s =
      .next (s.dmaStopped n).norm) ∧
    (c.state ≠ .stopping → exec (.dmaStopComplete ch) s = .next s.norm)

/-- Registers of a channel (R287 to R292, R340): enable from 0 to 1 starts the list of DMA_CH_LIST in IDLE, or the armed
shadow list; disable in RUN is STOPPING; in shoulder mode a 1 for enable is refused, sets DMA_ERR.`shoulder` and leaves
the bit; a write of SHADOW_HI with its arm bit arms the shadow list, without it only stores. -/
def Obligations.DmaControl : Prop :=
  ∀ (s : State) (ch : Fin 64) (v : Word), let n := ch.val
    let o := rDmaCtrl n
    let w := s.writeReg o v
    s.power.boot = .run → s.saf.safe ≠ .stop → s.power.idle = false →
    (v.getLsbD 0 = true → s.bit o 0 = false → s.mgt.shoulder = false → (s.dch n).state = .idle → (s.dch n).shadow = none →
      exec (.dmaEnable ch v) s = .next (w.dmaList n (w.dmaListAddr n)).norm) ∧
    (v.getLsbD 0 = true → s.mgt.shoulder = true → exec (.dmaEnable ch v) s =
      .next ((s.writeReg o (if s.bit o 0 then v else v &&& ~~~ 1)).err rDmaErr 9 2 .info (some n) 0).norm) ∧
    (v.getLsbD 0 = false → (s.dch n).state = .run → exec (.dmaDisable ch v) s =
      .next (w.setDch n { s.dch n with state := .stopping }).norm) ∧
    (v.getLsbD 0 = false → (s.dch n).state = .idle → exec (.dmaDisable ch v) s = .next w.norm) ∧
    (v.getLsbD 31 = false → exec (.dmaShadowArm ch v) s = .next (s.writeReg (rDmaShadowHi n) v).norm) ∧
    (v.getLsbD 31 = true → (s.dch n).state = .run → exec (.dmaShadowArm ch v) s =
      .next (let x := s.writeReg (rDmaShadowHi n) v
        x.setDch n { s.dch n with
          shadow := some ((x.reg (rDmaShadowLo n)).toNat + field v 0 8 * 2 ^ 32, BitVec.ofNat 4 (field v 8 4)) }).norm)

/-! ### Control space -/

/-- A write of a register without an effect of its own (R12, R13, R15, R371): RW and RWV bits take the written bits in all
three copies, a 1 written to a W1C bit clears it, every other bit stays; no other register and nothing else changes. -/
def Obligations.RegisterWrite : Prop :=
  ∀ (s : State) (off : BitVec 23) (v : Word), s.power.boot = .run → s.saf.safe ≠ .stop → s.power.idle = false → plainOff off.toNat = true →
    exec (.registerWrite off v) s = .next (s.writeReg off.toNat v).norm ∧
    (s.tablesWf = true → ∀ o, o ≠ off.toNat → (s.writeReg off.toNat v).reg3 o = s.reg3 o) ∧
    (s.tablesWf = true → ∀ i, let y := layout off.toNat
      let old := ((s.reg3 off.toNat).a).getLsbD i
      let new := (((s.writeReg off.toNat v).reg3 off.toNat).a).getLsbD i
      ((s.writeReg off.toNat v).reg3 off.toNat).b = ((s.writeReg off.toNat v).reg3 off.toNat).a ∧
      ((s.writeReg off.toNat v).reg3 off.toNat).c = ((s.writeReg off.toNat v).reg3 off.toNat).a ∧
      ((y.rw ||| y.votedMask).getLsbD i = false → y.w1c.getLsbD i = false → new = old) ∧
      ((y.rw ||| y.votedMask).getLsbD i = true → y.w1c.getLsbD i = false → new = v.getLsbD i) ∧
      ((y.rw ||| y.votedMask).getLsbD i = false → y.w1c.getLsbD i = true → new = (old && !(v.getLsbD i))))

/-- Three copies (R14, R335): with one copy of a word upset in any way, the word that is used keeps every bit of the two good
copies in its voted fields, and no vote is lost. Voted fields without a majority are never used (R335): the enqueue of a
request, and any use that `guardVotes` guards, enters the stop state with a class X entry instead. -/
def Obligations.VotedFields : Prop :=
  (∀ (o : Nat) (w x : Word),
     votedWord o ⟨w, w, x⟩ = w ∧ votedWord o ⟨w, x, w⟩ = w ∧
     (∀ f ∈ (layout o).voted, voteField ⟨x, w, w⟩ f.1 f.2 = some (field w f.1 f.2)) ∧
     votesHold o ⟨w, w, x⟩ = true ∧ votesHold o ⟨w, x, w⟩ = true ∧ votesHold o ⟨x, w, w⟩ = true) ∧
  (∀ (s : State) (used : Nat → Bool),
     (s.votesOk (s.votedUsed used) = true → s.guardVotes used = s) ∧
     (s.votesOk (s.votedUsed used) = false → s.saf.safe ≠ .stop → s.tablesWf = true →
       (s.guardVotes used).saf.safe = .stop ∧ ((s.guardVotes used).reg3 rSafErr).a.getLsbD 3 = true))

/-- Windows (R265, R271): of a valid window only `valid` can be written to 0, which takes an integrity window's granules out
of the paved bitmap; any other change is refused with CRY_ERR bit 0 and changes nothing of the window; a write that would
make a window valid against the rules leaves it invalid and is refused (the other fields of that write stay, log entry
23). -/
def Obligations.WindowRules : Prop :=
  ∀ (s : State) (n : Fin 64) (f : Fin 4) (v : Word), s.power.boot = .run → s.saf.safe ≠ .stop → s.power.idle = false →
    s.votesOk (s.votedUsed usesConfig) = true → s.tablesWf = true →
    let o := 0x80100 + n.val * 16 + f.val * 4
    let c : Instr := .windowWrite (BitVec.ofNat 23 o) v
    (s.winValid n.val = true → f.val = 0 → v.getLsbD 31 = false → exec c s = .next ((s.unpave n.val).writeReg o v).norm) ∧
    (s.winValid n.val = true → (f.val = 0 → v.getLsbD 31 = true) → (s.writeReg o v).reg o ≠ s.reg o →
      exec c s = .next s.cfgRefused.norm) ∧
    (s.winValid n.val = false → (s.writeReg o v).winValid n.val = false → exec c s = .next (s.writeReg o v).norm) ∧
    (s.winValid n.val = false → (s.writeReg o v).winValid n.val = true → (s.writeReg o v).winOk n.val = true →
      exec c s = .next ((s.writeReg o v).unpave n.val).norm) ∧
    (s.winValid n.val = false → (s.writeReg o v).winValid n.val = true → (s.writeReg o v).winOk n.val = false →
      exec c s = .next (((s.writeReg o v).putBit o 31 false).cfgRefused).norm)

/-- Key slots (R260): a load into an enabled slot and an unload of one are refused; an unload takes away all three keys of its
slot; setting the `ks_en` bit of a slot without a key leaves it 0, clearing the bit of a slot that a valid window names
leaves it 1, and both set CRY_ERR.`cfg_refused`; the other bits are taken. -/
def Obligations.KeySlotRules : Prop :=
  (∀ (s : State) (p : Path) (c : Cmd) (key : Option Key) (u : State), s.accepts p c key u →
    let n := c.params.getD 0 0
    let refused : Res := .next (u.replyWith p c key sRefused []).norm
    1 ≤ n → n ≤ 15 → zeroAt c.params 1 3 = true →
    (c.opcode = 0x50 → u.ksEnabled n = true → exec (.keyLoad p) s = refused) ∧
    (c.opcode = 0x51 → u.ksEnabled n = true → exec (.keyUnload p) s = refused) ∧
    (c.opcode = 0x51 → u.ksEnabled n = false → exec (.keyUnload p) s =
      .next ((u.setCry { u.cry with keys := tset noneDef u.cry.keys n none }).replyOk p c key []).norm)) ∧
  (∀ (s : State) (v : Word), s.power.boot = .run → s.saf.safe ≠ .stop → s.power.idle = false →
    s.votesOk (s.votedUsed usesConfig) = true →
    let w := pack ((List.range 16).map (fun k => (k, flag (s.ksNext v k))))
    (w = v &&& 0xffff → exec (.ksEnWrite v) s = .next (s.writeReg rCryCtrl w).norm) ∧
    (w ≠ v &&& 0xffff → exec (.ksEnWrite v) s = .next ((s.writeReg rCryCtrl w).err rCryErr 8 0 .info none 0).norm) ∧
    (∀ k, k < 16 → w.getLsbD k = s.ksNext v k) ∧
    (∀ k, k < 16 → v.getLsbD k = true → s.ksNext v k = (s.ksEnabled k || (s.slotKeys k).isSome)) ∧
    (∀ k, k < 16 → v.getLsbD k = false → s.ksNext v k = (s.ksEnabled k && s.slotNamed k)))

/-- Counter values (R347): LO only stages, HI stores both, so that a value changes in one write. HOM_RSV_CTRL (R148): a write
cancels every reservation and sets the granule. Counting an occurrence (R343, R345, R347): frozen counters stay; a counter
that runs on the event code and whose filters pass rises by the occurrences modulo 2^48, in the same fc. -/
def Obligations.CounterWrites : Prop :=
  (∀ (s : State) (n : Fin 64) (v : Word), s.power.boot = .run → s.saf.safe ≠ .stop → s.power.idle = false →
     exec (.cntValLoWrite n v) s = .next (s.setCnt n.val { s.cnt n.val with staged := v }).norm ∧
     exec (.cntValHiWrite n v) s = .next (s.setCnt n.val { s.cnt n.val with
       value := BitVec.ofNat 48 ((s.cnt n.val).staged.toNat + v.toNat % 2 ^ 16 * 2 ^ 32) }).norm) ∧
  (∀ (s : State) (v : Word), s.power.boot = .run → s.saf.safe ≠ .stop → s.power.idle = false → s.tablesWf = true →
     ∃ t, exec (.rsvGranuleWrite v) s = .next t ∧ t = (s.dropReservations.writeReg rHomRsv v).norm ∧
       (∀ p, t.port p = { s.port p with rsv := none }) ∧ t.queues = s.queues ∧ t.home = s.home) ∧
  (∀ (s : State) (code k : Nat) (a : Attr), s.tablesWf = true →
     (s.bit rCntGctl 0 = true → ∀ n, (s.count code a k).cnt n = s.cnt n) ∧
     (s.bit rCntGctl 0 = false → ∀ n, n < 64 → cntListed s = [n] → s.fld (rCntCfg n) 0 7 = code → cntPasses s n (a.keep code) = true →
       ((s.cnt n).value.toNat + k < 2 ^ 48 ∨ s.bit (rCntCfg n) 9 = false) →
       ((s.count code a k).cnt n).value = BitVec.ofNat 48 ((s.cnt n).value.toNat + k) ∧
       (∀ j, j ≠ n → (s.count code a k).cnt j = s.cnt j)))

/-- Maintenance by register (R174 to R177, R186): a write of WPC_MAINT_CMD with `go` starts the operation it names unless one
is in progress; without `go`, or while one is, only the register is written. Way operations that end at once (R176, R177,
R186): with no transaction open and no other work owed, WAY_UNLOCK clears the lock of its way and reports result 0, a way
operation on an invalid way reports 0, and an address at or above the installed size reports 2. -/
def Obligations.MaintenanceByRegister : Prop :=
  (∀ (s : State) (v : Word) (op : Nat) (c : Instr), s.power.boot = .run → s.saf.safe ≠ .stop → s.power.idle = false → field v 0 4 = op →
     (op, c) ∈ [(1, Instr.maintClean v), (2, .maintInvalidate v), (3, .maintCleanInvalidate v), (4, .lockFill v),
       (5, .unlockByAddress v), (8, .wayWriteBack v), (9, .wayEvict v), (10, .wayUnlock v)] →
     let w := s.writeReg rMaintCmd v
     (v.getLsbD 31 = true → s.wp.maintBusy = false → exec c s =
       .next (State.settle { w with wp := { w.wp with maintBusy := true, maintWait := some v } }).norm) ∧
     (v.getLsbD 31 = false ∨ s.wp.maintBusy = true → exec c s = .next w.norm)) ∧
  (∀ (s : State) (v : Word), s.wp.maintWait = none →
     (field v 0 4 = 10 → s.maintStart v = some ((s.putWay (wayKey (field v 4 12) (field v 16 4))
       { s.way (wayKey (field v 4 12) (field v 16 4)) with lock := false }).maintDone 0)) ∧
     ((field v 0 4 = 8 ∨ field v 0 4 = 9) → (s.way (wayKey (field v 4 12) (field v 16 4))).valid = false →
       s.maintStart v = some (s.maintDone 0)) ∧
     (1 ≤ field v 0 4 → field v 0 4 ≤ 5 → s.memBytes ≤ s.maintAddr → s.maintStart v = some (s.maintDone 2)))

/-- Test frames (R212): SPLIT_WRITE puts the test image with the chosen bits inverted in the test frame; TEST_READ reports how
many bits its read corrects, 3 for an uncorrectable image; neither touches another frame. Park partition registers (R224,
R225, R229): a write of the size in effect only stores; a shrink over a slot in use is refused with PRK_ERR bit 0; vacancy
is declared for a range that holds no slot, integrity window or byte beyond the memory, and refused with its reason
otherwise; a LOST slot that is released becomes free and its region vacant. -/
def Obligations.TestFramesAndParkRegisters : Prop :=
  (∀ (s : State) (v : Word) (e : FrameErr), s.power.boot = .run → s.saf.safe ≠ .stop → s.power.idle = false → v.getLsbD 31 = true →
     let w := s.writeReg rTestCtrl v
     let key := testKey (w.fld rTestCtrl 0 3) (w.fld rTestCtrl 3 6)
     (w.bit rTestCtrl 9 = false → exec (.splitWrite v) s =
       .next (w.putFrame key (flipBits w.testFlips (testImage (w.fld rTestCtrl 3 6)))).norm) ∧
     (w.bit rTestCtrl 9 = true → exec (.testRead v e) s = .next (w.testRead key e).norm) ∧
     (bchErrors (tget frameDef w.sto.frames key ^^^ e.e1) = none → (w.testRead key e).sto.testOutcome = 3)) ∧
  (∀ (s : State) (v : Word), s.power.boot = .run → s.saf.safe ≠ .stop → s.power.idle = false →
     (s.prk.resize = none → s.shrinkRefused (min 8 (field v 0 4)) = true →
       exec (.parkSizeWrite v) s = .next (s.err rPrkErr 6 0 .info none 0).norm) ∧
     (s.prk.resize = none → s.shrinkRefused (min 8 (field v 0 4)) = false → min 8 (field v 0 4) = s.prk.size →
       exec (.parkSizeWrite v) s = .next (s.writeReg rPrkCtrl v).norm) ∧
     (s.prk.resize = none → s.shrinkRefused (min 8 (field v 0 4)) = false → min 8 (field v 0 4) ≠ s.prk.size →
       exec (.parkSizeWrite v) s = .next (let w := s.writeReg rPrkCtrl v
         State.settle { w with prk := { w.prk with
           resize := some (min 8 (field v 0 4)), resizeDue := w.resizeLines (min 8 (field v 0 4)) } }).norm) ∧
     (let w := s.writeReg rVacCmd v
      let first := w.fld rVacBase 0 16
      let n := max 1 (field v 0 17)
      let out := w.prk.vacant.filter (fun x => decide (x < first) || decide (first + n ≤ x))
      v.getLsbD 31 = true → s.prk.vacBusy = false →
      (w.vacRefused first n = 0 → v.getLsbD 17 = true → exec (.vacancyWithdraw v) s =
        .next (State.norm { w with prk := { w.prk with vacant := out, vacResult := 0 } })) ∧
      (w.vacRefused first n = 0 → v.getLsbD 17 = false → exec (.vacancyDeclare v) s =
        .next (State.norm { w with prk := { w.prk with
          vacant := out.filter (fun x => decide (x < first)) ++ (List.range n).map (first + ·)
            ++ out.filter (fun x => decide (first < x)), vacResult := 0 } })) ∧
      (w.vacRefused first n ≠ 0 → exec (.vacancyDeclare v) s =
        .next (State.norm { w with prk := { w.prk with vacResult := BitVec.ofNat 2 (w.vacRefused first n) } }))) ∧
     (let w := s.writeReg rPrkRelease v
      let k := field v 0 10
      v.getLsbD 31 = true → (s.pslot k).pstate = .lost → exec (.slotRelease v) s =
        .next (let u := w.setPslot k { s.pslot k with pstate := w.freeState k false }
          State.norm { u with prk := { u.prk with vacant := sinsert (s.pslot k).region u.prk.vacant } })))

/-- The command FIFO (R315, R316): a word joins it, the last word of a packet makes a reply owed, a word beyond 128 sets
`overflow` and is dropped with all that follow, a flush empties it. The two reads with a side effect (R316, R320, R376):
MGT_REPLY_FIFO gives its oldest word, and 0 with `underrun` when it is empty and no reply is owed; MGT_EVT_LO takes the
oldest event out and holds its upper word, and gives 0 on an empty FIFO. -/
def Obligations.MailboxFifos : Prop :=
  (∀ (s : State) (v : Word), s.power.boot = .run → s.saf.safe ≠ .stop → s.power.idle = false → let m := s.mgt
     (m.overflow = true → exec (.cmdFifoWrite v) s = .next s.norm) ∧
     (m.overflow = false → 128 ≤ m.cmdFifo.length →
       exec (.cmdFifoWrite v) s = .next (State.norm { s with mgt := { m with overflow := true } })) ∧
     (m.overflow = false → m.cmdFifo.length < 128 → packetWhole (m.cmdSeen ++ [v]) = true →
       exec (.cmdFifoWrite v) s = .next (State.norm { s with mgt := { m with
         cmdFifo := m.cmdFifo ++ [v], cmdSeen := [], owedHost := m.owedHost + 1 } })) ∧
     (m.overflow = false → m.cmdFifo.length < 128 → packetWhole (m.cmdSeen ++ [v]) = false →
       exec (.cmdFifoWrite v) s = .next (State.norm { s with mgt := { m with
         cmdFifo := m.cmdFifo ++ [v], cmdSeen := m.cmdSeen ++ [v] } })) ∧
     (v.getLsbD 0 = true → m.readers = [] → s.power.replyPath = none → exec (.flush v) s = .next (State.norm { s with
       mgt := { m with cmdFifo := [], cmdSeen := [], overflow := false, owedHost := 0, readers := [] } })) ∧
     (v.getLsbD 0 = false → exec (.flush v) s = .next s.norm)) ∧
  (∀ s : State, s.power.boot = .run → s.saf.safe ≠ .stop → s.power.idle = false →
     (∀ w r, s.mgt.replyFifo = w :: r → s.mgt.readers = [] → s.power.replyOut ≠ some .host → exec .replyFifoRead s =
       .next (State.norm { s with mgt := { s.mgt with replyFifo := r }, out := s.out ++ [.csrRead rReplyFifo w] })) ∧
     (s.mgt.replyFifo = [] → s.mgt.owedHost = 0 → exec .replyFifoRead s =
       .next ((s.setBit rReplyStatus 9).emit (.csrRead rReplyFifo 0)).norm) ∧
     (s.mgt.replyFifo = [] → s.mgt.owedHost ≠ 0 → exec .replyFifoRead s = .next (State.norm { s with
       mgt := { s.mgt with readers := s.mgt.readers ++ [(noQueue, 0, rReplyFifo)] } })) ∧
     (∀ lo hi r, s.mgt.evtFifo = (lo, hi) :: r → exec .evtLoRead s =
       .next (State.norm { s with mgt := { s.mgt with evtFifo := r, evtHi := hi }, out := s.out ++ [.csrRead rEvtLo lo] })) ∧
     (s.mgt.evtFifo = [] → exec .evtLoRead s = .next (State.norm { s with out := s.out ++ [.csrRead rEvtLo 0] })))

/-! ### Errors, interrupts and counters -/

/-- The error log (R329): it never holds more than 1,024 entries, a new entry is always in it, entries of one fc stand in
ascending order of block and then of code, and a full log gives up its oldest class C or information entry, or its oldest
entry when it has neither, counting that as lost. -/
def Obligations.ErrorLogKeepsNewest : Prop :=
  ∀ (s : State) (e : LogEnt), s.saf.log.length ≤ 1024 →
    (s.pushLog e).saf.log.length ≤ 1024 ∧ e ∈ (s.pushLog e).saf.log ∧
    (∀ a b, (∀ x ∈ b, x.tick = e.tick ∧ x.fc = e.fc ∧ (e.block < x.block ∨ e.block = x.block ∧ e.code < x.code)) →
      (∀ y, a.getLast? = some y →
        ¬ (y.tick = e.tick ∧ y.fc = e.fc ∧ (e.block < y.block ∨ e.block = y.block ∧ e.code < y.code))) →
      logIn e (a ++ b) = a ++ e :: b) ∧
    (s.saf.log.length < 1024 → (s.pushLog e).saf.log = logIn e s.saf.log) ∧
    (∀ a x b, s.saf.log = a ++ x :: b → s.saf.log.length = 1024 → (x.cls = .c ∨ x.cls = .info) →
      (∀ y ∈ a, y.cls ≠ .c ∧ y.cls ≠ .info) → (s.pushLog e).saf.log = logIn e (a ++ b) ∧ (s.pushLog e).saf.lost = s.saf.lost) ∧
    (∀ x b, s.saf.log = x :: b → s.saf.log.length = 1024 → (∀ y ∈ s.saf.log, y.cls ≠ .c ∧ y.cls ≠ .info) →
      (s.pushLog e).saf.log = logIn e b ∧ (s.pushLog e).saf.lost = satInc s.saf.lost 65535)

/-- Interrupts (R322): a source whose pending bit is 1 sends nothing further; one that rises sets its bit, and ALERT_N is then
at the level that the pending bits and the alert mask give. Reporting an event touches what reports it and nothing else
(R328): home engine, queues, ports, waypoint, stored frames, DRAM, keys, park slots, DMA channels and the command queue
stay. -/
def Obligations.InterruptsAndReports : Prop :=
  (∀ (s : State) (src sub : Nat), s.tablesWf = true → src < 10 →
     (s.bit rIntrPend src = true → s.raise src sub = s) ∧
     (s.bit rIntrPend src = false → (s.raise src sub).bit rIntrPend src = true ∧
       (s.raise src sub).power.alertN = !(alertLow (s.raise src sub)))) ∧
  (∀ (s : State) (off block bit : Nat) (cls : Cls) (port : Option Nat) (addr : Nat) (detail : BitVec 64),
     let t := s.err off block bit cls port addr detail
     t.home = s.home ∧ t.queues = s.queues ∧ t.ports = s.ports ∧ t.wp = s.wp ∧ t.sto.frames = s.sto.frames ∧ t.mem = s.mem ∧
     t.cry = s.cry ∧ t.prk = s.prk ∧ t.dma = s.dma ∧ t.pending = s.pending ∧ t.tick = s.tick ∧ t.fc = s.fc ∧
     t.power.boot = s.power.boot ∧ t.saf.safe = s.saf.safe)

/-! ### Signpost and I3C -/

/-- Commands that read (R298, R299, R301, R310, R328, R334, R360): accepted with parameters in range, each is answered OK with
the bytes of its reply layout, and changes nothing but the command path it came on and the reply. -/
def Obligations.SignpostReads : Prop :=
  ∀ (s : State) (p : Path) (c : Cmd) (key : Option Key) (u : State), s.accepts p c key u →
    let b := c.params
    (c.opcode = 0x01 → exec (.identify p) s = .next (u.replyOk p c key
      (natBytes 2 0x4400 ++ [Config.stepping.toNat, 0] ++ natBytes 16 Config.uniqueId.toNat)).norm) ∧
    (c.opcode = 0x02 → exec (.getVersions p) s = .next (u.replyOk p c key
      (versionBytes u.mgt.slotA ++ versionBytes u.mgt.slotB ++ natBytes 4 Config.romVersion.toNat)).norm) ∧
    (c.opcode = 0x03 → exec (.getStatus p) s = .next (u.replyOk p c key
      (natBytes 4 u.fwStatus.toNat ++ natBytes 4 u.homStatus.toNat ++ [u.pwrState, u.saf.safe.code, 0, 0])).norm) ∧
    (c.opcode = 0x04 → exec (.echo p) s = .next (u.replyOk p c key b).norm) ∧
    (c.opcode = 0x20 → 1 ≤ b.getD 1 0 → b.getD 0 0 + b.getD 1 0 ≤ 22 → exec (.telemRead p) s = .next (u.replyOk p c key
      ((List.range (b.getD 1 0)).map (fun k => natBytes 4 (u.telemItem (b.getD 0 0 + k)).toNat)).flatten).norm) ∧
    (c.opcode = 0x30 → leNat b 0 2 ≤ 1023 → 1 ≤ b.getD 2 0 → b.getD 2 0 ≤ 7 → b.getD 3 0 = 0 → exec (.logRead p) s =
      .next (u.replyOk p c key ((List.range (b.getD 2 0)).map (fun k => match u.saf.log[leNat b 0 2 + k]? with
        | some e => e.bytes
        | none => List.replicate 32 0)).flatten).norm) ∧
    (c.opcode = 0x60 → factoryIndexOk (b.getD 0 0) (b.getD 1 0) = true → zeroAt b 2 2 = true → exec (.calFactoryRead p) s =
      .next (u.replyOk p c key (intBytes (factoryValue (b.getD 0 0) (b.getD 1 0)))).norm) ∧
    (c.opcode = 0x61 → trimIndexOk (b.getD 0 0) (b.getD 1 0) = true → zeroAt b 2 2 = true → exec (.calTrimRead p) s =
      .next (u.replyOk p c key (intBytes (u.mgt.trimValue (trimKey (b.getD 0 0) (b.getD 1 0))))).norm) ∧
    (c.opcode = 0x74 → exec (.governorGet p) s = .next (u.replyOk p c key
      (natBytes 2 u.power.cap ++ natBytes 2 u.capEff ++ natBytes 2 (u.telemItem 16).toNat ++ [0, 0])).norm) ∧
    (c.opcode = 0x80 → b.getD 0 0 ≤ 7 → b.getD 1 0 = 0 → leNat b 2 2 ≤ 527 → exec (.wearRead p) s = .next (u.replyOk p c key
      (natBytes 4 (tget lifeDef (u.die (b.getD 0 0)).life (leNat b 2 2)).units ++
        [(u.die (b.getD 0 0)).freeSpares, (u.die (b.getD 0 0)).segUse (leNat b 2 2), 0, 0])).norm) ∧
    (c.opcode = 0x81 → 1 ≤ b.getD 2 0 → b.getD 2 0 ≤ 30 → leNat b 0 2 + b.getD 2 0 ≤ 1024 → b.getD 3 0 = 0 →
      exec (.parkMapRead p) s = .next (u.replyOk p c key
        ((List.range (b.getD 2 0)).map (fun k => u.mapBytes (leNat b 0 2 + k))).flatten).norm) ∧
    (c.opcode = 0x90 → exec (.selftestStatus p) s = .next (u.replyOk p c key
      (natBytes 2 u.saf.lastSelf.toNat ++ natBytes 2 u.saf.selfFailed.toNat ++ natBytes 4 u.saf.lastSelfTick.toNat)).norm) ∧
    (c.opcode = 0x14 → ∀ x, (u.pathSt p).session = some x → exec (.sessionStatus p) s = .next (u.replyOk p c key
      ([x.level, Path.byte p] ++ natBytes 2 (60000 - x.idle))).norm)

/-- Tollgate (R311, R312, R314): OPEN gives a fresh challenge, a free value, when the level has a key and the path is not
locked out; AUTH with the right response opens a session of the challenge's level, with a wrong one it fails with an
alarm; CLOSE ends the session; PROVISION over I3C sets a blank key; a session idle for 60,000 ticks closes; the lock-out
ends. Timers of the Tollgate (R312, R314): a session idle for 60,000 ticks closes, a lock-out of 1,000 ticks ends, neither
earlier. -/
def Obligations.Tollgate : Prop :=
  (∀ (s : State) (p : Path) (c : Cmd) (key : Option Key) (u : State), s.accepts p c key u →
     let b := c.params
     let x := u.pathSt p
     (c.opcode = 0x10 → ∀ k, (b.getD 0 0 = 1 ∨ b.getD 0 0 = 2) → zeroAt b 1 3 = true → x.lockout.any (· < 1000) = false →
       u.levelKey (b.getD 0 0) = some k → exec (.tollgateOpen p) s = .next ((State.setPath { u with free := u.free + 1 } p { x with
         challenge := some ⟨b.getD 0 0, BitVec.ofNat 128 (leNat b 4 16), Config.freeChallenge u.free⟩ }).replyOk p c key
           (keyBytes (Config.freeChallenge u.free))).norm) ∧
     (c.opcode = 0x10 → (b.getD 0 0 = 1 ∨ b.getD 0 0 = 2) → zeroAt b 1 3 = true → x.lockout.any (· < 1000) = true →
       exec (.tollgateOpen p) s = .next (u.replyWith p c key sBusy []).norm) ∧
     (c.opcode = 0x11 → ∀ ch k, x.challenge = some ch → u.levelKey ch.level = some k → ch.answer k p = b →
       exec (.tollgateAuth p) s = .next ((u.setPath p { x with
         challenge := none, openFails := 0, session := some ⟨ch.level, ch.sessionKey k, none, 0, 0⟩ }).replyOk p c key []).norm) ∧
     (c.opcode = 0x11 → ∀ ch k, x.challenge = some ch → u.levelKey ch.level = some k → ch.answer k p ≠ b →
       exec (.tollgateAuth p) s = .next ((u.openFailed p).replyWith p c key sAuthFail []).norm) ∧
     (c.opcode = 0x12 → exec (.tollgateClose p) s =
       .next ((u.setPath p { x with session := none }).replyOk p c key []).norm) ∧
     (c.opcode = 0x13 → p = .i3c → b.getD 0 0 = 2 → zeroAt b 1 3 = true → u.mgt.ownKey = none →
       exec (.tollgateProvision p) s = .next ((u.setMgt { u.mgt with ownKey := some (keyOfBytes (b.drop 4)) }).replyOk p c key []).norm) ∧
     (c.opcode = 0x13 → p = .host → (b.getD 0 0 = 1 ∨ b.getD 0 0 = 2) → zeroAt b 1 3 = true →
       exec (.tollgateProvision p) s = .next (u.replyWith p c key sRefused []).norm)) ∧
  (∀ (s : State) (p : Path), let x := s.pathSt p
     (∀ y, x.session = some y → 60000 ≤ y.idle → exec (.sessionIdleClose p) s = .next (s.setPath p { x with session := none }).norm) ∧
     (∀ y, x.session = some y → y.idle < 60000 → exec (.sessionIdleClose p) s = .next s.norm) ∧
     (∀ n, x.lockout = some n → 1000 ≤ n → exec (.tollgateLockoutEnd p) s = .next (s.setPath p { x with lockout := none }).norm) ∧
     (∀ n, x.lockout = some n → n < 1000 → exec (.tollgateLockoutEnd p) s = .next s.norm))

/-- Authentication (R312, R313): a command runs above level 0 only in a session on its path, with a trailer that verifies
under the session's key and a sequence number above the last verified one; it never runs above the session's level. A
stale number is answered SEQ without a trailer; a third failure in a row closes the session, and an AUTH_FAIL answered in
it counts as one. -/
def Obligations.AuthenticationNeeded : Prop :=
  ∀ (s : State) (c : Cmd),
    (∀ n key u, s.authenticate c = .level n key u → n = 0 ∨ ∃ x, (s.pathSt c.path).session = some x ∧ n = x.level ∧
      c.auth = true ∧ c.trailerOk x.key = true ∧ (∀ m, x.lastSeq = some m → m < c.seq) ∧
      (u.pathSt c.path).session = some { x with idle := 0, lastSeq := some c.seq }) ∧
    (∀ x, (s.pathSt c.path).session = some x → c.auth = true → c.trailerOk x.key = false → 2 ≤ x.fails →
      ∃ u, s.authenticate c = .bad sAuthFail none u ∧ (u.pathSt c.path).session = none) ∧
    (∀ x n, (s.pathSt c.path).session = some x → c.auth = true → c.trailerOk x.key = true → x.lastSeq = some n → c.seq ≤ n →
      ∃ u, s.authenticate c = .bad sSeq none u) ∧
    (∀ x k, (s.pathSt c.path).session = some x →
      ((s.sessionNote c.path (some k) true).pathSt c.path).session = (if 2 ≤ x.fails then none else some { x with fails := x.fails + 1 }) ∧
      ((s.sessionNote c.path (some k) false).pathSt c.path).session = some { x with fails := 0 })

/-- Commands that are not executed (R307, R308, R310, R340, R341): a reserved opcode, a wrong length or flag, or a command
that the shoulder or stop state does not serve is answered with its status and leaves everything else; one whose level the
session does not reach is DENIED. A late reply (R317): the host path is given the header of its owed command with status
PENDING, and interrupt source 0. -/
def Obligations.SignpostRefuses : Prop :=
  (∀ (s : State) (p : Path) (c : Cmd), s.power.idle = false → s.nextCmd p = some c → s.serves p = true →
     let d := s.dropCmd p
     (c.bad = false → c.length ≤ 248 → c.flags < 2 → opRow c.opcode = none → exec (.signpostReservedOpcode p) s =
       .next (d.cmdReply p (replyBytes c.opcode c.seq sBadOpcode [] none)).norm) ∧
     (∀ st, d.preCheck c = some st → c.opcode = 0x04 →
       exec (.echo p) s = .next (d.cmdReply p (replyBytes c.opcode c.seq st [] none)).norm) ∧
     (∀ n key u, c.opcode = 0x31 → d.preCheck c = none → d.authenticate c = .level n key u → n < 1 → exec (.logClear p) s =
       .next (u.replyWith p c key sDenied []).norm) ∧
     (c.opcode ≠ 0x04 → exec (.echo p) s = .next s.norm)) ∧
  (∀ (s : State) (c : Cmd), s.live = true → s.mgt.owedHost ≠ 0 → s.mgt.replyFifo.length + 2 ≤ 128 → s.mgt.late = none →
     s.nextCmd .host = some c → exec (.pendingReply .host) s =
       .next ((s.pushReply (packWords (headBytes c.opcode c.seq 0 sPending))).raise 0 0).norm)

/-- Firmware (R303, R305, R308): BEGIN erases the slot that does not run, DATA stores its bytes at their offset, COMMIT of an
image that passes the checks makes its slot preferred with a trial boot, of one that fails is refused and leaves the
preference; SELECT sets the preferred slot. Keys, trims, the cap, the log and events (R259 to R261, R301, R320, R328,
R360): KEY_LOAD stores the unwrapped keys of a slot that is not enabled, KEY_UNLOAD takes them away, KEY_READY ends the
key wait; a trim in range and a cap of 3,000 to 11,000 mW are staged; LOG_CLEAR empties the log; EVENT_DRAIN takes out the
oldest events. -/
def Obligations.SignpostWrites : Prop :=
  (∀ (s : State) (p : Path) (c : Cmd) (key : Option Key) (u : State), s.accepts p c key u →
     let b := c.params
     (c.opcode = 0x40 → 1 ≤ leNat b 0 4 → leNat b 0 4 ≤ 2097152 → exec (.fwUpdateBegin p) s =
       .next ((u.setMgt (if u.mgt.running = 0 then { u.mgt with update := some ⟨1, leNat b 0 4, []⟩, slotB := none }
         else { u.mgt with update := some ⟨0, leNat b 0 4, []⟩, slotA := none })).replyOk p c key []).norm) ∧
     (c.opcode = 0x41 → ∀ x, u.mgt.update = some x → leNat b 0 4 + (b.drop 4).length ≤ x.size → 
       let nb := (List.range (b.drop 4).length).foldl
         (fun t i => tput (leNat b 0 4 + i) (BitVec.ofNat 8 ((b.drop 4).getD i 0)) t) x.bytes
       exec (.fwUpdateData p) s =
         .next ((u.setMgt { u.mgt with update := some { x with bytes := nb } }).replyOk p c key []).norm) ∧
     (c.opcode = 0x42 → ∀ x, u.mgt.update = some x →
       let m := if x.slot = 0 then { u.mgt with update := none, slotA := some x.image }
         else { u.mgt with update := none, slotB := some x.image }
       (fwOk (some x.image) = true → exec (.fwUpdateCommit p) s =
         .next ((u.setMgt { m with prefer := x.slot, trial := true, trialBoot := false }).replyOk
           p c key ([x.slot, 0, 0, 0] ++ natBytes 4 (Config.imageVersion x.image).toNat)).norm) ∧
       (fwOk (some x.image) = false → exec (.fwUpdateCommit p) s =
         .next ((u.setMgt m).replyWith p c key sRefused []).norm)) ∧
     (c.opcode = 0x43 → b.getD 0 0 ≤ 1 → zeroAt b 1 3 = true → exec (.fwSlotSelect p) s =
       .next ((u.setMgt { u.mgt with prefer := b.getD 0 0, trial := false, trialBoot := false }).replyOk p c key []).norm)) ∧
  (∀ (s : State) (p : Path) (c : Cmd) (key : Option Key) (u : State), s.accepts p c key u →
     let b := c.params
     let n := b.getD 0 0
     (c.opcode = 0x50 → 1 ≤ n → n ≤ 15 → zeroAt b 1 3 = true → u.ksEnabled n = false → ∀ x,
       keyUnwrap (Config.wrapKey Config.otpRootKey) (b.drop 4) = some x → 
       let k : Keys := ⟨keyOfBytes (x.take 32), keyOfBytes ((x.drop 32).take 32), keyOfBytes (x.drop 64)⟩
       exec (.keyLoad p) s =
         .next ((u.setCry { u.cry with keys := tset noneDef u.cry.keys n (some k) }).replyOk p c key []).norm) ∧
     (c.opcode = 0x50 → 1 ≤ n → n ≤ 15 → zeroAt b 1 3 = true → u.ksEnabled n = true → exec (.keyLoad p) s =
       .next (u.replyWith p c key sRefused []).norm) ∧
     (c.opcode = 0x51 → 1 ≤ n → n ≤ 15 → zeroAt b 1 3 = true → u.ksEnabled n = false → exec (.keyUnload p) s =
       .next ((u.setCry { u.cry with keys := tset noneDef u.cry.keys n none }).replyOk p c key []).norm) ∧
     (c.opcode = 0x52 → exec (.keyReady p) s = .next (u.keysReady.replyOk p c key []).norm) ∧
     (c.opcode = 0x62 → trimIndexOk n (b.getD 1 0) = true → zeroAt b 2 2 = true →
       -(trimMax n) ≤ (BitVec.ofNat 32 (leNat b 4 4)).toInt → (BitVec.ofNat 32 (leNat b 4 4)).toInt ≤ trimMax n →
       exec (.calTrimWrite p) s = .next ((u.setMgt { u.mgt with trimNext := u.mgt.trimNext ++
         [(trimKey n (b.getD 1 0), (BitVec.ofNat 32 (leNat b 4 4)).toInt)], trimCrcOk := true }).replyOk p c key []).norm) ∧
     (c.opcode = 0x73 → 3000 ≤ leNat b 0 2 → leNat b 0 2 ≤ 11000 → zeroAt b 2 2 = true → exec (.governorSet p) s =
       .next (State.replyOk { u with power := { u.power with capNext := leNat b 0 2 } } p c key []).norm) ∧
     (c.opcode = 0x31 → exec (.logClear p) s =
       .next (State.replyOk { u with saf := { u.saf with log := [], lost := 0 } } p c key []).norm) ∧
     (c.opcode = 0x91 → 1 ≤ n → n ≤ 30 → zeroAt b 1 3 = true → exec (.eventDrain p) s =
       .next ((drainEvents n u).2.replyOk p c key (drainEvents n u).1).norm))

/-- Resets and stops by command (R324, R355): SOFT_RESET is answered OK and pending for the next boundary; SHUTDOWN and
STANDBY_ENTER stop admission and the channels, and reply only when everything they wait for has come about, after their
last writes, after the marker of the tick and while the reply FIFO has room. -/
def Obligations.StopCommands : Prop :=
  (∀ (s : State) (p : Path) (c : Cmd) (key : Option Key) (u : State), s.accepts p c key u →
    (c.opcode = 0x70 → exec (.softReset p) s =
      .next (State.replyOk { u with power := { u.power with softPending := true } } p c key []).norm) ∧
    (c.opcode = 0x71 → u.power.boot = .run → s.power.boot = .run → (u.stopAdmission .shutdown).stopReady = false →
      exec (.shutdown p) s = .next (State.lastSeqClose (State.sessionNote (let v := u.stopAdmission .shutdown
        { v with power := { v.power with replyPath := some p }, mgt := { v.mgt with late := some ⟨c.opcode, c.seq, key⟩ } }) p
          key false) c key).norm) ∧
    (c.opcode = 0x72 → u.power.boot = .run → s.power.boot = .run → (u.stopAdmission .standbyEntry).stopReady = false →
      exec (.standbyEnter p) s = .next (State.lastSeqClose (State.sessionNote (let v := u.stopAdmission .standbyEntry
        { v with power := { v.power with replyPath := some p }, mgt := { v.mgt with late := some ⟨c.opcode, c.seq, key⟩ } }) p
          key false) c key).norm)) ∧
  (∀ (s : State) (p : Path) (w : Late), s.power.replyPath = some p → s.mgt.late = some w → s.stopReady = true →
    s.atWork = true → s.lateRoom p = true →
    (s.power.boot = .shutdown → exec (.shutdown p) s = .next (State.cmdReply (let v := s.shutdownEnd
      { v with power := { v.power with replyPath := none, replyOut := some p }, mgt := { v.mgt with late := none } }) p
        (replyBytes w.opcode w.seq sOk [] w.key)).norm) ∧
    (s.power.boot = .standbyEntry → exec (.standbyEnter p) s = .next (State.cmdReply (let v := s.standbyEnd
      { v with power := { v.power with replyPath := none, replyOut := some p }, mgt := { v.mgt with late := none } }) p
        (replyBytes w.opcode w.seq sOk [] w.key)).norm))

/-- The target on its bus: a private write is a command unless a reply is owed or unread; a private read gives the reply once,
PENDING while it is owed, and is otherwise not acknowledged; HDR traffic is ignored until its exit; address assignment
gives the identity and takes the address; a CCC that is not supported is not acknowledged when it is direct. Common
command codes (R318): ENEC and DISEC with bit 0 turn IBIs on and off; RSTDAA, SETDASA for the static address 0x4C plus the
straps, and SETNEWDA change the dynamic address; the GET codes answer with the identity, the characteristics and the
maximum lengths of 256 bytes, most significant byte first; the status word and the third byte of GETMRL are free values
(log entries 7 and 32). -/
def Obligations.I3cTarget : Prop :=
  (∀ s : State, s.power.boot.i3cUp = true → let i := s.mgt.i3c
     (i.hdr = false → s.power.idle = false → s.power.boot ≠ .standby → s.i3cOwed = false → s.mgt.i3cp.reply = none → s.shutOver = false →
       ∀ b, b ≠ [] → b.length ≤ 256 → exec (.i3cPrivateWrite b) s = .next (State.norm { s with
         mgt := { s.mgt with i3cp := { s.mgt.i3cp with
           packets := s.mgt.i3cp.packets ++ [(packetOf b).1], badLen := s.mgt.i3cp.badLen ++ [(packetOf b).2] } }
         out := s.out ++ [.i3cAck] })) ∧
     (i.hdr = false → s.power.idle = false → s.power.boot ≠ .standby → s.i3cOwed = true →
       ∀ b, exec (.i3cPrivateWrite b) s = .next (s.emit .i3cNack).norm) ∧
     (i.hdr = false → ∀ b, s.mgt.i3cp.reply = some b → s.power.replyOut ≠ some .i3c → exec .i3cPrivateRead s = .next (State.norm { s with
       mgt := { s.mgt with i3cp := { s.mgt.i3cp with reply := none } }, out := s.out ++ [.i3cBytes b] })) ∧
     (i.hdr = false → s.mgt.i3cp.reply = none → s.i3cOwed = false → exec .i3cPrivateRead s = .next (s.emit .i3cNack).norm) ∧
     (i.hdr = false → exec .i3cHdrEntry s = .next (State.norm { s with mgt := { s.mgt with i3c := { i with hdr := true } } })) ∧
     (exec .i3cHdrExit s = .next (State.norm { s with mgt := { s.mgt with i3c := { i with hdr := false } } })) ∧
     (i.hdr = true → ∀ b, exec (.i3cPrivateWrite b) s = .next s.norm) ∧
     (i.hdr = false → i.dynAddr = none → ∀ a, exec (.entdaa a) s = .next (State.norm { s with
       mgt := { s.mgt with i3c := { i with dynAddr := some a } }
       out := s.out ++ [.i3cBytes (bigBytes 6 Config.provisionalId.toNat ++ [0x06, 0x00])] })) ∧
     (i.hdr = false → exec (.unsupportedCcc true) s = .next (s.emit .i3cNack).norm ∧
       exec (.unsupportedCcc false) s = .next s.norm)) ∧
  (∀ (s : State), s.power.boot.i3cUp = true → s.mgt.i3c.hdr = false → let i := s.mgt.i3c
     let put := fun (j : I3c) => { s with mgt := { s.mgt with i3c := j } }
     let say := fun (b : List (BitVec 8)) => State.norm { s with out := s.out ++ [.i3cBytes b] }
     (∀ e : BitVec 8, e.getLsbD 0 = true → exec (.enec e) s = .next (put { i with ibiOn := true }).norm ∧
       exec (.disec e) s = .next (put { i with ibiOn := false }).norm) ∧
     (exec .rstdaa s = .next (put { i with dynAddr := none }).norm) ∧
     (∀ a, i.dynAddr = none → exec (.setdasa (BitVec.ofNat 7 (0x4C + s.power.straps.i3ca.toNat)) a) s =
       .next ((put { i with dynAddr := some a }).emit .i3cAck).norm) ∧
     (∀ x a, x ≠ BitVec.ofNat 7 (0x4C + s.power.straps.i3ca.toNat) → exec (.setdasa x a) s = .next (s.emit .i3cNack).norm) ∧
     (∀ a b, i.dynAddr = some b → exec (.setnewda a) s = .next ((put { i with dynAddr := some a }).emit .i3cAck).norm) ∧
     exec .getpid s = .next (say (bigBytes 6 Config.provisionalId.toNat)) ∧
     exec .getbcr s = .next (say [0x06]) ∧ exec .getdcr s = .next (say [0x00]) ∧
     exec .getmwl s = .next (say [0x01, 0x00]) ∧
     exec .getmrl s = .next (State.norm { s with
       free := s.free + 1, out := s.out ++ [.i3cBytes [0x01, 0x00, BitVec.ofNat 8 (Config.freeNat s.free)]] }) ∧
     exec .getstatus s = .next (State.norm { s with
       free := s.free + 1, out := s.out ++ [.i3cBytes (bigBytes 2 (Config.i3cStatusWord s.free).toNat)] }))
end

