-- ==== Sys2Proof/Laws/State.lean ====
section
/-! SUPPORT. One lemma for each field of the state and each update of it. -/
namespace Sys2Proof.Machine

variable (s : State)

@[simp] theorem State.setLink_pending (l : Nat) (v : Link) : (s.setLink l v).pending = s.pending := rfl
@[simp] theorem State.setLink_tick (l : Nat) (v : Link) : (s.setLink l v).tick = s.tick := rfl
@[simp] theorem State.setLink_fc (l : Nat) (v : Link) : (s.setLink l v).fc = s.fc := rfl
@[simp] theorem State.setLink_free (l : Nat) (v : Link) : (s.setLink l v).free = s.free := rfl
@[simp] theorem State.setLink_arrival (l : Nat) (v : Link) : (s.setLink l v).arrival = s.arrival := rfl
@[simp] theorem State.setLink_order (l : Nat) (v : Link) : (s.setLink l v).order = s.order := rfl
@[simp] theorem State.setLink_txHalf (l : Nat) (v : Link) : (s.setLink l v).txHalf = s.txHalf := rfl
@[simp] theorem State.setLink_ring (l : Nat) (v : Link) : (s.setLink l v).ring = s.ring := rfl
@[simp] theorem State.setLink_out (l : Nat) (v : Link) : (s.setLink l v).out = s.out := rfl
@[simp] theorem State.setLink_csr (l : Nat) (v : Link) : (s.setLink l v).csr = s.csr := rfl
@[simp] theorem State.setLink_power (l : Nat) (v : Link) : (s.setLink l v).power = s.power := rfl
@[simp] theorem State.setLink_ports (l : Nat) (v : Link) : (s.setLink l v).ports = s.ports := rfl
@[simp] theorem State.setLink_queues (l : Nat) (v : Link) : (s.setLink l v).queues = s.queues := rfl
@[simp] theorem State.setLink_arbs (l : Nat) (v : Link) : (s.setLink l v).arbs = s.arbs := rfl
@[simp] theorem State.setLink_home (l : Nat) (v : Link) : (s.setLink l v).home = s.home := rfl
@[simp] theorem State.setLink_wp (l : Nat) (v : Link) : (s.setLink l v).wp = s.wp := rfl
@[simp] theorem State.setLink_sto (l : Nat) (v : Link) : (s.setLink l v).sto = s.sto := rfl
@[simp] theorem State.setLink_prk (l : Nat) (v : Link) : (s.setLink l v).prk = s.prk := rfl
@[simp] theorem State.setLink_mem (l : Nat) (v : Link) : (s.setLink l v).mem = s.mem := rfl
@[simp] theorem State.setLink_cry (l : Nat) (v : Link) : (s.setLink l v).cry = s.cry := rfl
@[simp] theorem State.setLink_dma (l : Nat) (v : Link) : (s.setLink l v).dma = s.dma := rfl
@[simp] theorem State.setLink_mgt (l : Nat) (v : Link) : (s.setLink l v).mgt = s.mgt := rfl
@[simp] theorem State.setLink_saf (l : Nat) (v : Link) : (s.setLink l v).saf = s.saf := rfl
@[simp] theorem State.setLink_cnts (l : Nat) (v : Link) : (s.setLink l v).cnts = s.cnts := rfl

@[simp] theorem State.setHalf_pending (l : Nat) (b : Bool) : (s.setHalf l b).pending = s.pending := rfl
@[simp] theorem State.setHalf_tick (l : Nat) (b : Bool) : (s.setHalf l b).tick = s.tick := rfl
@[simp] theorem State.setHalf_fc (l : Nat) (b : Bool) : (s.setHalf l b).fc = s.fc := rfl
@[simp] theorem State.setHalf_free (l : Nat) (b : Bool) : (s.setHalf l b).free = s.free := rfl
@[simp] theorem State.setHalf_arrival (l : Nat) (b : Bool) : (s.setHalf l b).arrival = s.arrival := rfl
@[simp] theorem State.setHalf_order (l : Nat) (b : Bool) : (s.setHalf l b).order = s.order := rfl
@[simp] theorem State.setHalf_ring (l : Nat) (b : Bool) : (s.setHalf l b).ring = s.ring := rfl
@[simp] theorem State.setHalf_out (l : Nat) (b : Bool) : (s.setHalf l b).out = s.out := rfl
@[simp] theorem State.setHalf_csr (l : Nat) (b : Bool) : (s.setHalf l b).csr = s.csr := rfl
@[simp] theorem State.setHalf_power (l : Nat) (b : Bool) : (s.setHalf l b).power = s.power := rfl
@[simp] theorem State.setHalf_links (l : Nat) (b : Bool) : (s.setHalf l b).links = s.links := rfl
@[simp] theorem State.setHalf_ports (l : Nat) (b : Bool) : (s.setHalf l b).ports = s.ports := rfl
@[simp] theorem State.setHalf_queues (l : Nat) (b : Bool) : (s.setHalf l b).queues = s.queues := rfl
@[simp] theorem State.setHalf_arbs (l : Nat) (b : Bool) : (s.setHalf l b).arbs = s.arbs := rfl
@[simp] theorem State.setHalf_home (l : Nat) (b : Bool) : (s.setHalf l b).home = s.home := rfl
@[simp] theorem State.setHalf_wp (l : Nat) (b : Bool) : (s.setHalf l b).wp = s.wp := rfl
@[simp] theorem State.setHalf_sto (l : Nat) (b : Bool) : (s.setHalf l b).sto = s.sto := rfl
@[simp] theorem State.setHalf_prk (l : Nat) (b : Bool) : (s.setHalf l b).prk = s.prk := rfl
@[simp] theorem State.setHalf_mem (l : Nat) (b : Bool) : (s.setHalf l b).mem = s.mem := rfl
@[simp] theorem State.setHalf_cry (l : Nat) (b : Bool) : (s.setHalf l b).cry = s.cry := rfl
@[simp] theorem State.setHalf_dma (l : Nat) (b : Bool) : (s.setHalf l b).dma = s.dma := rfl
@[simp] theorem State.setHalf_mgt (l : Nat) (b : Bool) : (s.setHalf l b).mgt = s.mgt := rfl
@[simp] theorem State.setHalf_saf (l : Nat) (b : Bool) : (s.setHalf l b).saf = s.saf := rfl
@[simp] theorem State.setHalf_cnts (l : Nat) (b : Bool) : (s.setHalf l b).cnts = s.cnts := rfl

@[simp] theorem State.setPort_pending (p : Nat) (v : Port) : (s.setPort p v).pending = s.pending := rfl
@[simp] theorem State.setPort_tick (p : Nat) (v : Port) : (s.setPort p v).tick = s.tick := rfl
@[simp] theorem State.setPort_fc (p : Nat) (v : Port) : (s.setPort p v).fc = s.fc := rfl
@[simp] theorem State.setPort_free (p : Nat) (v : Port) : (s.setPort p v).free = s.free := rfl
@[simp] theorem State.setPort_arrival (p : Nat) (v : Port) : (s.setPort p v).arrival = s.arrival := rfl
@[simp] theorem State.setPort_order (p : Nat) (v : Port) : (s.setPort p v).order = s.order := rfl
@[simp] theorem State.setPort_txHalf (p : Nat) (v : Port) : (s.setPort p v).txHalf = s.txHalf := rfl
@[simp] theorem State.setPort_ring (p : Nat) (v : Port) : (s.setPort p v).ring = s.ring := rfl
@[simp] theorem State.setPort_out (p : Nat) (v : Port) : (s.setPort p v).out = s.out := rfl
@[simp] theorem State.setPort_csr (p : Nat) (v : Port) : (s.setPort p v).csr = s.csr := rfl
@[simp] theorem State.setPort_power (p : Nat) (v : Port) : (s.setPort p v).power = s.power := rfl
@[simp] theorem State.setPort_links (p : Nat) (v : Port) : (s.setPort p v).links = s.links := rfl
@[simp] theorem State.setPort_queues (p : Nat) (v : Port) : (s.setPort p v).queues = s.queues := rfl
@[simp] theorem State.setPort_arbs (p : Nat) (v : Port) : (s.setPort p v).arbs = s.arbs := rfl
@[simp] theorem State.setPort_home (p : Nat) (v : Port) : (s.setPort p v).home = s.home := rfl
@[simp] theorem State.setPort_wp (p : Nat) (v : Port) : (s.setPort p v).wp = s.wp := rfl
@[simp] theorem State.setPort_sto (p : Nat) (v : Port) : (s.setPort p v).sto = s.sto := rfl
@[simp] theorem State.setPort_prk (p : Nat) (v : Port) : (s.setPort p v).prk = s.prk := rfl
@[simp] theorem State.setPort_mem (p : Nat) (v : Port) : (s.setPort p v).mem = s.mem := rfl
@[simp] theorem State.setPort_cry (p : Nat) (v : Port) : (s.setPort p v).cry = s.cry := rfl
@[simp] theorem State.setPort_dma (p : Nat) (v : Port) : (s.setPort p v).dma = s.dma := rfl
@[simp] theorem State.setPort_mgt (p : Nat) (v : Port) : (s.setPort p v).mgt = s.mgt := rfl
@[simp] theorem State.setPort_saf (p : Nat) (v : Port) : (s.setPort p v).saf = s.saf := rfl
@[simp] theorem State.setPort_cnts (p : Nat) (v : Port) : (s.setPort p v).cnts = s.cnts := rfl

@[simp] theorem State.setQueue_pending (q : Nat) (v : Queue) : (s.setQueue q v).pending = s.pending := rfl
@[simp] theorem State.setQueue_tick (q : Nat) (v : Queue) : (s.setQueue q v).tick = s.tick := rfl
@[simp] theorem State.setQueue_fc (q : Nat) (v : Queue) : (s.setQueue q v).fc = s.fc := rfl
@[simp] theorem State.setQueue_free (q : Nat) (v : Queue) : (s.setQueue q v).free = s.free := rfl
@[simp] theorem State.setQueue_arrival (q : Nat) (v : Queue) : (s.setQueue q v).arrival = s.arrival := rfl
@[simp] theorem State.setQueue_order (q : Nat) (v : Queue) : (s.setQueue q v).order = s.order := rfl
@[simp] theorem State.setQueue_txHalf (q : Nat) (v : Queue) : (s.setQueue q v).txHalf = s.txHalf := rfl
@[simp] theorem State.setQueue_ring (q : Nat) (v : Queue) : (s.setQueue q v).ring = s.ring := rfl
@[simp] theorem State.setQueue_out (q : Nat) (v : Queue) : (s.setQueue q v).out = s.out := rfl
@[simp] theorem State.setQueue_csr (q : Nat) (v : Queue) : (s.setQueue q v).csr = s.csr := rfl
@[simp] theorem State.setQueue_power (q : Nat) (v : Queue) : (s.setQueue q v).power = s.power := rfl
@[simp] theorem State.setQueue_links (q : Nat) (v : Queue) : (s.setQueue q v).links = s.links := rfl
@[simp] theorem State.setQueue_ports (q : Nat) (v : Queue) : (s.setQueue q v).ports = s.ports := rfl
@[simp] theorem State.setQueue_arbs (q : Nat) (v : Queue) : (s.setQueue q v).arbs = s.arbs := rfl
@[simp] theorem State.setQueue_home (q : Nat) (v : Queue) : (s.setQueue q v).home = s.home := rfl
@[simp] theorem State.setQueue_wp (q : Nat) (v : Queue) : (s.setQueue q v).wp = s.wp := rfl
@[simp] theorem State.setQueue_sto (q : Nat) (v : Queue) : (s.setQueue q v).sto = s.sto := rfl
@[simp] theorem State.setQueue_prk (q : Nat) (v : Queue) : (s.setQueue q v).prk = s.prk := rfl
@[simp] theorem State.setQueue_mem (q : Nat) (v : Queue) : (s.setQueue q v).mem = s.mem := rfl
@[simp] theorem State.setQueue_cry (q : Nat) (v : Queue) : (s.setQueue q v).cry = s.cry := rfl
@[simp] theorem State.setQueue_dma (q : Nat) (v : Queue) : (s.setQueue q v).dma = s.dma := rfl
@[simp] theorem State.setQueue_mgt (q : Nat) (v : Queue) : (s.setQueue q v).mgt = s.mgt := rfl
@[simp] theorem State.setQueue_saf (q : Nat) (v : Queue) : (s.setQueue q v).saf = s.saf := rfl
@[simp] theorem State.setQueue_cnts (q : Nat) (v : Queue) : (s.setQueue q v).cnts = s.cnts := rfl

@[simp] theorem State.setSlot_pending (k : Nat) (v : Option Slot) : (s.setSlot k v).pending = s.pending := rfl
@[simp] theorem State.setSlot_tick (k : Nat) (v : Option Slot) : (s.setSlot k v).tick = s.tick := rfl
@[simp] theorem State.setSlot_fc (k : Nat) (v : Option Slot) : (s.setSlot k v).fc = s.fc := rfl
@[simp] theorem State.setSlot_free (k : Nat) (v : Option Slot) : (s.setSlot k v).free = s.free := rfl
@[simp] theorem State.setSlot_arrival (k : Nat) (v : Option Slot) : (s.setSlot k v).arrival = s.arrival := rfl
@[simp] theorem State.setSlot_order (k : Nat) (v : Option Slot) : (s.setSlot k v).order = s.order := rfl
@[simp] theorem State.setSlot_txHalf (k : Nat) (v : Option Slot) : (s.setSlot k v).txHalf = s.txHalf := rfl
@[simp] theorem State.setSlot_ring (k : Nat) (v : Option Slot) : (s.setSlot k v).ring = s.ring := rfl
@[simp] theorem State.setSlot_out (k : Nat) (v : Option Slot) : (s.setSlot k v).out = s.out := rfl
@[simp] theorem State.setSlot_csr (k : Nat) (v : Option Slot) : (s.setSlot k v).csr = s.csr := rfl
@[simp] theorem State.setSlot_power (k : Nat) (v : Option Slot) : (s.setSlot k v).power = s.power := rfl
@[simp] theorem State.setSlot_links (k : Nat) (v : Option Slot) : (s.setSlot k v).links = s.links := rfl
@[simp] theorem State.setSlot_ports (k : Nat) (v : Option Slot) : (s.setSlot k v).ports = s.ports := rfl
@[simp] theorem State.setSlot_queues (k : Nat) (v : Option Slot) : (s.setSlot k v).queues = s.queues := rfl
@[simp] theorem State.setSlot_arbs (k : Nat) (v : Option Slot) : (s.setSlot k v).arbs = s.arbs := rfl
@[simp] theorem State.setSlot_wp (k : Nat) (v : Option Slot) : (s.setSlot k v).wp = s.wp := rfl
@[simp] theorem State.setSlot_sto (k : Nat) (v : Option Slot) : (s.setSlot k v).sto = s.sto := rfl
@[simp] theorem State.setSlot_prk (k : Nat) (v : Option Slot) : (s.setSlot k v).prk = s.prk := rfl
@[simp] theorem State.setSlot_mem (k : Nat) (v : Option Slot) : (s.setSlot k v).mem = s.mem := rfl
@[simp] theorem State.setSlot_cry (k : Nat) (v : Option Slot) : (s.setSlot k v).cry = s.cry := rfl
@[simp] theorem State.setSlot_dma (k : Nat) (v : Option Slot) : (s.setSlot k v).dma = s.dma := rfl
@[simp] theorem State.setSlot_mgt (k : Nat) (v : Option Slot) : (s.setSlot k v).mgt = s.mgt := rfl
@[simp] theorem State.setSlot_saf (k : Nat) (v : Option Slot) : (s.setSlot k v).saf = s.saf := rfl
@[simp] theorem State.setSlot_cnts (k : Nat) (v : Option Slot) : (s.setSlot k v).cnts = s.cnts := rfl

@[simp] theorem State.setFent_pending (k : Nat) (v : Option FEnt) : (s.setFent k v).pending = s.pending := rfl
@[simp] theorem State.setFent_tick (k : Nat) (v : Option FEnt) : (s.setFent k v).tick = s.tick := rfl
@[simp] theorem State.setFent_fc (k : Nat) (v : Option FEnt) : (s.setFent k v).fc = s.fc := rfl
@[simp] theorem State.setFent_free (k : Nat) (v : Option FEnt) : (s.setFent k v).free = s.free := rfl
@[simp] theorem State.setFent_arrival (k : Nat) (v : Option FEnt) : (s.setFent k v).arrival = s.arrival := rfl
@[simp] theorem State.setFent_order (k : Nat) (v : Option FEnt) : (s.setFent k v).order = s.order := rfl
@[simp] theorem State.setFent_txHalf (k : Nat) (v : Option FEnt) : (s.setFent k v).txHalf = s.txHalf := rfl
@[simp] theorem State.setFent_ring (k : Nat) (v : Option FEnt) : (s.setFent k v).ring = s.ring := rfl
@[simp] theorem State.setFent_out (k : Nat) (v : Option FEnt) : (s.setFent k v).out = s.out := rfl
@[simp] theorem State.setFent_csr (k : Nat) (v : Option FEnt) : (s.setFent k v).csr = s.csr := rfl
@[simp] theorem State.setFent_power (k : Nat) (v : Option FEnt) : (s.setFent k v).power = s.power := rfl
@[simp] theorem State.setFent_links (k : Nat) (v : Option FEnt) : (s.setFent k v).links = s.links := rfl
@[simp] theorem State.setFent_ports (k : Nat) (v : Option FEnt) : (s.setFent k v).ports = s.ports := rfl
@[simp] theorem State.setFent_queues (k : Nat) (v : Option FEnt) : (s.setFent k v).queues = s.queues := rfl
@[simp] theorem State.setFent_arbs (k : Nat) (v : Option FEnt) : (s.setFent k v).arbs = s.arbs := rfl
@[simp] theorem State.setFent_wp (k : Nat) (v : Option FEnt) : (s.setFent k v).wp = s.wp := rfl
@[simp] theorem State.setFent_sto (k : Nat) (v : Option FEnt) : (s.setFent k v).sto = s.sto := rfl
@[simp] theorem State.setFent_prk (k : Nat) (v : Option FEnt) : (s.setFent k v).prk = s.prk := rfl
@[simp] theorem State.setFent_mem (k : Nat) (v : Option FEnt) : (s.setFent k v).mem = s.mem := rfl
@[simp] theorem State.setFent_cry (k : Nat) (v : Option FEnt) : (s.setFent k v).cry = s.cry := rfl
@[simp] theorem State.setFent_dma (k : Nat) (v : Option FEnt) : (s.setFent k v).dma = s.dma := rfl
@[simp] theorem State.setFent_mgt (k : Nat) (v : Option FEnt) : (s.setFent k v).mgt = s.mgt := rfl
@[simp] theorem State.setFent_saf (k : Nat) (v : Option FEnt) : (s.setFent k v).saf = s.saf := rfl
@[simp] theorem State.setFent_cnts (k : Nat) (v : Option FEnt) : (s.setFent k v).cnts = s.cnts := rfl

@[simp] theorem State.setChain_pending (k : Nat) (v : List Nat) : (s.setChain k v).pending = s.pending := rfl
@[simp] theorem State.setChain_tick (k : Nat) (v : List Nat) : (s.setChain k v).tick = s.tick := rfl
@[simp] theorem State.setChain_fc (k : Nat) (v : List Nat) : (s.setChain k v).fc = s.fc := rfl
@[simp] theorem State.setChain_free (k : Nat) (v : List Nat) : (s.setChain k v).free = s.free := rfl
@[simp] theorem State.setChain_arrival (k : Nat) (v : List Nat) : (s.setChain k v).arrival = s.arrival := rfl
@[simp] theorem State.setChain_order (k : Nat) (v : List Nat) : (s.setChain k v).order = s.order := rfl
@[simp] theorem State.setChain_txHalf (k : Nat) (v : List Nat) : (s.setChain k v).txHalf = s.txHalf := rfl
@[simp] theorem State.setChain_ring (k : Nat) (v : List Nat) : (s.setChain k v).ring = s.ring := rfl
@[simp] theorem State.setChain_out (k : Nat) (v : List Nat) : (s.setChain k v).out = s.out := rfl
@[simp] theorem State.setChain_csr (k : Nat) (v : List Nat) : (s.setChain k v).csr = s.csr := rfl
@[simp] theorem State.setChain_power (k : Nat) (v : List Nat) : (s.setChain k v).power = s.power := rfl
@[simp] theorem State.setChain_links (k : Nat) (v : List Nat) : (s.setChain k v).links = s.links := rfl
@[simp] theorem State.setChain_ports (k : Nat) (v : List Nat) : (s.setChain k v).ports = s.ports := rfl
@[simp] theorem State.setChain_queues (k : Nat) (v : List Nat) : (s.setChain k v).queues = s.queues := rfl
@[simp] theorem State.setChain_arbs (k : Nat) (v : List Nat) : (s.setChain k v).arbs = s.arbs := rfl
@[simp] theorem State.setChain_wp (k : Nat) (v : List Nat) : (s.setChain k v).wp = s.wp := rfl
@[simp] theorem State.setChain_sto (k : Nat) (v : List Nat) : (s.setChain k v).sto = s.sto := rfl
@[simp] theorem State.setChain_prk (k : Nat) (v : List Nat) : (s.setChain k v).prk = s.prk := rfl
@[simp] theorem State.setChain_mem (k : Nat) (v : List Nat) : (s.setChain k v).mem = s.mem := rfl
@[simp] theorem State.setChain_cry (k : Nat) (v : List Nat) : (s.setChain k v).cry = s.cry := rfl
@[simp] theorem State.setChain_dma (k : Nat) (v : List Nat) : (s.setChain k v).dma = s.dma := rfl
@[simp] theorem State.setChain_mgt (k : Nat) (v : List Nat) : (s.setChain k v).mgt = s.mgt := rfl
@[simp] theorem State.setChain_saf (k : Nat) (v : List Nat) : (s.setChain k v).saf = s.saf := rfl
@[simp] theorem State.setChain_cnts (k : Nat) (v : List Nat) : (s.setChain k v).cnts = s.cnts := rfl

@[simp] theorem State.setWay_pending (k : Nat) (v : Way) : (s.setWay k v).pending = s.pending := rfl
@[simp] theorem State.setWay_tick (k : Nat) (v : Way) : (s.setWay k v).tick = s.tick := rfl
@[simp] theorem State.setWay_fc (k : Nat) (v : Way) : (s.setWay k v).fc = s.fc := rfl
@[simp] theorem State.setWay_free (k : Nat) (v : Way) : (s.setWay k v).free = s.free := rfl
@[simp] theorem State.setWay_arrival (k : Nat) (v : Way) : (s.setWay k v).arrival = s.arrival := rfl
@[simp] theorem State.setWay_order (k : Nat) (v : Way) : (s.setWay k v).order = s.order := rfl
@[simp] theorem State.setWay_txHalf (k : Nat) (v : Way) : (s.setWay k v).txHalf = s.txHalf := rfl
@[simp] theorem State.setWay_ring (k : Nat) (v : Way) : (s.setWay k v).ring = s.ring := rfl
@[simp] theorem State.setWay_out (k : Nat) (v : Way) : (s.setWay k v).out = s.out := rfl
@[simp] theorem State.setWay_csr (k : Nat) (v : Way) : (s.setWay k v).csr = s.csr := rfl
@[simp] theorem State.setWay_power (k : Nat) (v : Way) : (s.setWay k v).power = s.power := rfl
@[simp] theorem State.setWay_links (k : Nat) (v : Way) : (s.setWay k v).links = s.links := rfl
@[simp] theorem State.setWay_ports (k : Nat) (v : Way) : (s.setWay k v).ports = s.ports := rfl
@[simp] theorem State.setWay_queues (k : Nat) (v : Way) : (s.setWay k v).queues = s.queues := rfl
@[simp] theorem State.setWay_arbs (k : Nat) (v : Way) : (s.setWay k v).arbs = s.arbs := rfl
@[simp] theorem State.setWay_home (k : Nat) (v : Way) : (s.setWay k v).home = s.home := rfl
@[simp] theorem State.setWay_sto (k : Nat) (v : Way) : (s.setWay k v).sto = s.sto := rfl
@[simp] theorem State.setWay_prk (k : Nat) (v : Way) : (s.setWay k v).prk = s.prk := rfl
@[simp] theorem State.setWay_mem (k : Nat) (v : Way) : (s.setWay k v).mem = s.mem := rfl
@[simp] theorem State.setWay_cry (k : Nat) (v : Way) : (s.setWay k v).cry = s.cry := rfl
@[simp] theorem State.setWay_dma (k : Nat) (v : Way) : (s.setWay k v).dma = s.dma := rfl
@[simp] theorem State.setWay_mgt (k : Nat) (v : Way) : (s.setWay k v).mgt = s.mgt := rfl
@[simp] theorem State.setWay_saf (k : Nat) (v : Way) : (s.setWay k v).saf = s.saf := rfl
@[simp] theorem State.setWay_cnts (k : Nat) (v : Way) : (s.setWay k v).cnts = s.cnts := rfl

@[simp] theorem State.setDie_pending (k : Nat) (v : Die) : (s.setDie k v).pending = s.pending := rfl
@[simp] theorem State.setDie_tick (k : Nat) (v : Die) : (s.setDie k v).tick = s.tick := rfl
@[simp] theorem State.setDie_fc (k : Nat) (v : Die) : (s.setDie k v).fc = s.fc := rfl
@[simp] theorem State.setDie_free (k : Nat) (v : Die) : (s.setDie k v).free = s.free := rfl
@[simp] theorem State.setDie_arrival (k : Nat) (v : Die) : (s.setDie k v).arrival = s.arrival := rfl
@[simp] theorem State.setDie_order (k : Nat) (v : Die) : (s.setDie k v).order = s.order := rfl
@[simp] theorem State.setDie_txHalf (k : Nat) (v : Die) : (s.setDie k v).txHalf = s.txHalf := rfl
@[simp] theorem State.setDie_ring (k : Nat) (v : Die) : (s.setDie k v).ring = s.ring := rfl
@[simp] theorem State.setDie_out (k : Nat) (v : Die) : (s.setDie k v).out = s.out := rfl
@[simp] theorem State.setDie_csr (k : Nat) (v : Die) : (s.setDie k v).csr = s.csr := rfl
@[simp] theorem State.setDie_power (k : Nat) (v : Die) : (s.setDie k v).power = s.power := rfl
@[simp] theorem State.setDie_links (k : Nat) (v : Die) : (s.setDie k v).links = s.links := rfl
@[simp] theorem State.setDie_ports (k : Nat) (v : Die) : (s.setDie k v).ports = s.ports := rfl
@[simp] theorem State.setDie_queues (k : Nat) (v : Die) : (s.setDie k v).queues = s.queues := rfl
@[simp] theorem State.setDie_arbs (k : Nat) (v : Die) : (s.setDie k v).arbs = s.arbs := rfl
@[simp] theorem State.setDie_home (k : Nat) (v : Die) : (s.setDie k v).home = s.home := rfl
@[simp] theorem State.setDie_wp (k : Nat) (v : Die) : (s.setDie k v).wp = s.wp := rfl
@[simp] theorem State.setDie_prk (k : Nat) (v : Die) : (s.setDie k v).prk = s.prk := rfl
@[simp] theorem State.setDie_mem (k : Nat) (v : Die) : (s.setDie k v).mem = s.mem := rfl
@[simp] theorem State.setDie_cry (k : Nat) (v : Die) : (s.setDie k v).cry = s.cry := rfl
@[simp] theorem State.setDie_dma (k : Nat) (v : Die) : (s.setDie k v).dma = s.dma := rfl
@[simp] theorem State.setDie_mgt (k : Nat) (v : Die) : (s.setDie k v).mgt = s.mgt := rfl
@[simp] theorem State.setDie_saf (k : Nat) (v : Die) : (s.setDie k v).saf = s.saf := rfl
@[simp] theorem State.setDie_cnts (k : Nat) (v : Die) : (s.setDie k v).cnts = s.cnts := rfl

@[simp] theorem State.setPslot_pending (k : Nat) (v : PSlot) : (s.setPslot k v).pending = s.pending := rfl
@[simp] theorem State.setPslot_tick (k : Nat) (v : PSlot) : (s.setPslot k v).tick = s.tick := rfl
@[simp] theorem State.setPslot_fc (k : Nat) (v : PSlot) : (s.setPslot k v).fc = s.fc := rfl
@[simp] theorem State.setPslot_free (k : Nat) (v : PSlot) : (s.setPslot k v).free = s.free := rfl
@[simp] theorem State.setPslot_arrival (k : Nat) (v : PSlot) : (s.setPslot k v).arrival = s.arrival := rfl
@[simp] theorem State.setPslot_order (k : Nat) (v : PSlot) : (s.setPslot k v).order = s.order := rfl
@[simp] theorem State.setPslot_txHalf (k : Nat) (v : PSlot) : (s.setPslot k v).txHalf = s.txHalf := rfl
@[simp] theorem State.setPslot_ring (k : Nat) (v : PSlot) : (s.setPslot k v).ring = s.ring := rfl
@[simp] theorem State.setPslot_out (k : Nat) (v : PSlot) : (s.setPslot k v).out = s.out := rfl
@[simp] theorem State.setPslot_csr (k : Nat) (v : PSlot) : (s.setPslot k v).csr = s.csr := rfl
@[simp] theorem State.setPslot_power (k : Nat) (v : PSlot) : (s.setPslot k v).power = s.power := rfl
@[simp] theorem State.setPslot_links (k : Nat) (v : PSlot) : (s.setPslot k v).links = s.links := rfl
@[simp] theorem State.setPslot_ports (k : Nat) (v : PSlot) : (s.setPslot k v).ports = s.ports := rfl
@[simp] theorem State.setPslot_queues (k : Nat) (v : PSlot) : (s.setPslot k v).queues = s.queues := rfl
@[simp] theorem State.setPslot_arbs (k : Nat) (v : PSlot) : (s.setPslot k v).arbs = s.arbs := rfl
@[simp] theorem State.setPslot_home (k : Nat) (v : PSlot) : (s.setPslot k v).home = s.home := rfl
@[simp] theorem State.setPslot_wp (k : Nat) (v : PSlot) : (s.setPslot k v).wp = s.wp := rfl
@[simp] theorem State.setPslot_sto (k : Nat) (v : PSlot) : (s.setPslot k v).sto = s.sto := rfl
@[simp] theorem State.setPslot_mem (k : Nat) (v : PSlot) : (s.setPslot k v).mem = s.mem := rfl
@[simp] theorem State.setPslot_cry (k : Nat) (v : PSlot) : (s.setPslot k v).cry = s.cry := rfl
@[simp] theorem State.setPslot_dma (k : Nat) (v : PSlot) : (s.setPslot k v).dma = s.dma := rfl
@[simp] theorem State.setPslot_mgt (k : Nat) (v : PSlot) : (s.setPslot k v).mgt = s.mgt := rfl
@[simp] theorem State.setPslot_saf (k : Nat) (v : PSlot) : (s.setPslot k v).saf = s.saf := rfl
@[simp] theorem State.setPslot_cnts (k : Nat) (v : PSlot) : (s.setPslot k v).cnts = s.cnts := rfl

@[simp] theorem State.setChan_pending (k : Nat) (v : Chan) : (s.setChan k v).pending = s.pending := rfl
@[simp] theorem State.setChan_tick (k : Nat) (v : Chan) : (s.setChan k v).tick = s.tick := rfl
@[simp] theorem State.setChan_fc (k : Nat) (v : Chan) : (s.setChan k v).fc = s.fc := rfl
@[simp] theorem State.setChan_free (k : Nat) (v : Chan) : (s.setChan k v).free = s.free := rfl
@[simp] theorem State.setChan_arrival (k : Nat) (v : Chan) : (s.setChan k v).arrival = s.arrival := rfl
@[simp] theorem State.setChan_order (k : Nat) (v : Chan) : (s.setChan k v).order = s.order := rfl
@[simp] theorem State.setChan_txHalf (k : Nat) (v : Chan) : (s.setChan k v).txHalf = s.txHalf := rfl
@[simp] theorem State.setChan_ring (k : Nat) (v : Chan) : (s.setChan k v).ring = s.ring := rfl
@[simp] theorem State.setChan_out (k : Nat) (v : Chan) : (s.setChan k v).out = s.out := rfl
@[simp] theorem State.setChan_csr (k : Nat) (v : Chan) : (s.setChan k v).csr = s.csr := rfl
@[simp] theorem State.setChan_power (k : Nat) (v : Chan) : (s.setChan k v).power = s.power := rfl
@[simp] theorem State.setChan_links (k : Nat) (v : Chan) : (s.setChan k v).links = s.links := rfl
@[simp] theorem State.setChan_ports (k : Nat) (v : Chan) : (s.setChan k v).ports = s.ports := rfl
@[simp] theorem State.setChan_queues (k : Nat) (v : Chan) : (s.setChan k v).queues = s.queues := rfl
@[simp] theorem State.setChan_arbs (k : Nat) (v : Chan) : (s.setChan k v).arbs = s.arbs := rfl
@[simp] theorem State.setChan_home (k : Nat) (v : Chan) : (s.setChan k v).home = s.home := rfl
@[simp] theorem State.setChan_wp (k : Nat) (v : Chan) : (s.setChan k v).wp = s.wp := rfl
@[simp] theorem State.setChan_sto (k : Nat) (v : Chan) : (s.setChan k v).sto = s.sto := rfl
@[simp] theorem State.setChan_prk (k : Nat) (v : Chan) : (s.setChan k v).prk = s.prk := rfl
@[simp] theorem State.setChan_cry (k : Nat) (v : Chan) : (s.setChan k v).cry = s.cry := rfl
@[simp] theorem State.setChan_dma (k : Nat) (v : Chan) : (s.setChan k v).dma = s.dma := rfl
@[simp] theorem State.setChan_mgt (k : Nat) (v : Chan) : (s.setChan k v).mgt = s.mgt := rfl
@[simp] theorem State.setChan_saf (k : Nat) (v : Chan) : (s.setChan k v).saf = s.saf := rfl
@[simp] theorem State.setChan_cnts (k : Nat) (v : Chan) : (s.setChan k v).cnts = s.cnts := rfl

@[simp] theorem State.setDch_pending (k : Nat) (v : DmaCh) : (s.setDch k v).pending = s.pending := rfl
@[simp] theorem State.setDch_tick (k : Nat) (v : DmaCh) : (s.setDch k v).tick = s.tick := rfl
@[simp] theorem State.setDch_fc (k : Nat) (v : DmaCh) : (s.setDch k v).fc = s.fc := rfl
@[simp] theorem State.setDch_free (k : Nat) (v : DmaCh) : (s.setDch k v).free = s.free := rfl
@[simp] theorem State.setDch_arrival (k : Nat) (v : DmaCh) : (s.setDch k v).arrival = s.arrival := rfl
@[simp] theorem State.setDch_order (k : Nat) (v : DmaCh) : (s.setDch k v).order = s.order := rfl
@[simp] theorem State.setDch_txHalf (k : Nat) (v : DmaCh) : (s.setDch k v).txHalf = s.txHalf := rfl
@[simp] theorem State.setDch_ring (k : Nat) (v : DmaCh) : (s.setDch k v).ring = s.ring := rfl
@[simp] theorem State.setDch_out (k : Nat) (v : DmaCh) : (s.setDch k v).out = s.out := rfl
@[simp] theorem State.setDch_csr (k : Nat) (v : DmaCh) : (s.setDch k v).csr = s.csr := rfl
@[simp] theorem State.setDch_power (k : Nat) (v : DmaCh) : (s.setDch k v).power = s.power := rfl
@[simp] theorem State.setDch_links (k : Nat) (v : DmaCh) : (s.setDch k v).links = s.links := rfl
@[simp] theorem State.setDch_ports (k : Nat) (v : DmaCh) : (s.setDch k v).ports = s.ports := rfl
@[simp] theorem State.setDch_queues (k : Nat) (v : DmaCh) : (s.setDch k v).queues = s.queues := rfl
@[simp] theorem State.setDch_arbs (k : Nat) (v : DmaCh) : (s.setDch k v).arbs = s.arbs := rfl
@[simp] theorem State.setDch_home (k : Nat) (v : DmaCh) : (s.setDch k v).home = s.home := rfl
@[simp] theorem State.setDch_wp (k : Nat) (v : DmaCh) : (s.setDch k v).wp = s.wp := rfl
@[simp] theorem State.setDch_sto (k : Nat) (v : DmaCh) : (s.setDch k v).sto = s.sto := rfl
@[simp] theorem State.setDch_prk (k : Nat) (v : DmaCh) : (s.setDch k v).prk = s.prk := rfl
@[simp] theorem State.setDch_mem (k : Nat) (v : DmaCh) : (s.setDch k v).mem = s.mem := rfl
@[simp] theorem State.setDch_cry (k : Nat) (v : DmaCh) : (s.setDch k v).cry = s.cry := rfl
@[simp] theorem State.setDch_mgt (k : Nat) (v : DmaCh) : (s.setDch k v).mgt = s.mgt := rfl
@[simp] theorem State.setDch_saf (k : Nat) (v : DmaCh) : (s.setDch k v).saf = s.saf := rfl
@[simp] theorem State.setDch_cnts (k : Nat) (v : DmaCh) : (s.setDch k v).cnts = s.cnts := rfl

@[simp] theorem State.setCnt_pending (k : Nat) (v : Cnt) : (s.setCnt k v).pending = s.pending := rfl
@[simp] theorem State.setCnt_tick (k : Nat) (v : Cnt) : (s.setCnt k v).tick = s.tick := rfl
@[simp] theorem State.setCnt_fc (k : Nat) (v : Cnt) : (s.setCnt k v).fc = s.fc := rfl
@[simp] theorem State.setCnt_free (k : Nat) (v : Cnt) : (s.setCnt k v).free = s.free := rfl
@[simp] theorem State.setCnt_arrival (k : Nat) (v : Cnt) : (s.setCnt k v).arrival = s.arrival := rfl
@[simp] theorem State.setCnt_order (k : Nat) (v : Cnt) : (s.setCnt k v).order = s.order := rfl
@[simp] theorem State.setCnt_txHalf (k : Nat) (v : Cnt) : (s.setCnt k v).txHalf = s.txHalf := rfl
@[simp] theorem State.setCnt_ring (k : Nat) (v : Cnt) : (s.setCnt k v).ring = s.ring := rfl
@[simp] theorem State.setCnt_out (k : Nat) (v : Cnt) : (s.setCnt k v).out = s.out := rfl
@[simp] theorem State.setCnt_csr (k : Nat) (v : Cnt) : (s.setCnt k v).csr = s.csr := rfl
@[simp] theorem State.setCnt_power (k : Nat) (v : Cnt) : (s.setCnt k v).power = s.power := rfl
@[simp] theorem State.setCnt_links (k : Nat) (v : Cnt) : (s.setCnt k v).links = s.links := rfl
@[simp] theorem State.setCnt_ports (k : Nat) (v : Cnt) : (s.setCnt k v).ports = s.ports := rfl
@[simp] theorem State.setCnt_queues (k : Nat) (v : Cnt) : (s.setCnt k v).queues = s.queues := rfl
@[simp] theorem State.setCnt_arbs (k : Nat) (v : Cnt) : (s.setCnt k v).arbs = s.arbs := rfl
@[simp] theorem State.setCnt_home (k : Nat) (v : Cnt) : (s.setCnt k v).home = s.home := rfl
@[simp] theorem State.setCnt_wp (k : Nat) (v : Cnt) : (s.setCnt k v).wp = s.wp := rfl
@[simp] theorem State.setCnt_sto (k : Nat) (v : Cnt) : (s.setCnt k v).sto = s.sto := rfl
@[simp] theorem State.setCnt_prk (k : Nat) (v : Cnt) : (s.setCnt k v).prk = s.prk := rfl
@[simp] theorem State.setCnt_mem (k : Nat) (v : Cnt) : (s.setCnt k v).mem = s.mem := rfl
@[simp] theorem State.setCnt_cry (k : Nat) (v : Cnt) : (s.setCnt k v).cry = s.cry := rfl
@[simp] theorem State.setCnt_dma (k : Nat) (v : Cnt) : (s.setCnt k v).dma = s.dma := rfl
@[simp] theorem State.setCnt_mgt (k : Nat) (v : Cnt) : (s.setCnt k v).mgt = s.mgt := rfl
@[simp] theorem State.setCnt_saf (k : Nat) (v : Cnt) : (s.setCnt k v).saf = s.saf := rfl

@[simp] theorem State.setArb_pending (k v : Nat) : (s.setArb k v).pending = s.pending := rfl
@[simp] theorem State.setArb_tick (k v : Nat) : (s.setArb k v).tick = s.tick := rfl
@[simp] theorem State.setArb_fc (k v : Nat) : (s.setArb k v).fc = s.fc := rfl
@[simp] theorem State.setArb_free (k v : Nat) : (s.setArb k v).free = s.free := rfl
@[simp] theorem State.setArb_arrival (k v : Nat) : (s.setArb k v).arrival = s.arrival := rfl
@[simp] theorem State.setArb_order (k v : Nat) : (s.setArb k v).order = s.order := rfl
@[simp] theorem State.setArb_txHalf (k v : Nat) : (s.setArb k v).txHalf = s.txHalf := rfl
@[simp] theorem State.setArb_ring (k v : Nat) : (s.setArb k v).ring = s.ring := rfl
@[simp] theorem State.setArb_out (k v : Nat) : (s.setArb k v).out = s.out := rfl
@[simp] theorem State.setArb_csr (k v : Nat) : (s.setArb k v).csr = s.csr := rfl
@[simp] theorem State.setArb_power (k v : Nat) : (s.setArb k v).power = s.power := rfl
@[simp] theorem State.setArb_links (k v : Nat) : (s.setArb k v).links = s.links := rfl
@[simp] theorem State.setArb_ports (k v : Nat) : (s.setArb k v).ports = s.ports := rfl
@[simp] theorem State.setArb_queues (k v : Nat) : (s.setArb k v).queues = s.queues := rfl
@[simp] theorem State.setArb_home (k v : Nat) : (s.setArb k v).home = s.home := rfl
@[simp] theorem State.setArb_wp (k v : Nat) : (s.setArb k v).wp = s.wp := rfl
@[simp] theorem State.setArb_sto (k v : Nat) : (s.setArb k v).sto = s.sto := rfl
@[simp] theorem State.setArb_prk (k v : Nat) : (s.setArb k v).prk = s.prk := rfl
@[simp] theorem State.setArb_mem (k v : Nat) : (s.setArb k v).mem = s.mem := rfl
@[simp] theorem State.setArb_cry (k v : Nat) : (s.setArb k v).cry = s.cry := rfl
@[simp] theorem State.setArb_dma (k v : Nat) : (s.setArb k v).dma = s.dma := rfl
@[simp] theorem State.setArb_mgt (k v : Nat) : (s.setArb k v).mgt = s.mgt := rfl
@[simp] theorem State.setArb_saf (k v : Nat) : (s.setArb k v).saf = s.saf := rfl
@[simp] theorem State.setArb_cnts (k v : Nat) : (s.setArb k v).cnts = s.cnts := rfl

@[simp] theorem State.setReg3_pending (k : Nat) (v : Reg3) : (s.setReg3 k v).pending = s.pending := rfl
@[simp] theorem State.setReg3_tick (k : Nat) (v : Reg3) : (s.setReg3 k v).tick = s.tick := rfl
@[simp] theorem State.setReg3_fc (k : Nat) (v : Reg3) : (s.setReg3 k v).fc = s.fc := rfl
@[simp] theorem State.setReg3_free (k : Nat) (v : Reg3) : (s.setReg3 k v).free = s.free := rfl
@[simp] theorem State.setReg3_arrival (k : Nat) (v : Reg3) : (s.setReg3 k v).arrival = s.arrival := rfl
@[simp] theorem State.setReg3_order (k : Nat) (v : Reg3) : (s.setReg3 k v).order = s.order := rfl
@[simp] theorem State.setReg3_txHalf (k : Nat) (v : Reg3) : (s.setReg3 k v).txHalf = s.txHalf := rfl
@[simp] theorem State.setReg3_ring (k : Nat) (v : Reg3) : (s.setReg3 k v).ring = s.ring := rfl
@[simp] theorem State.setReg3_out (k : Nat) (v : Reg3) : (s.setReg3 k v).out = s.out := rfl
@[simp] theorem State.setReg3_power (k : Nat) (v : Reg3) : (s.setReg3 k v).power = s.power := rfl
@[simp] theorem State.setReg3_links (k : Nat) (v : Reg3) : (s.setReg3 k v).links = s.links := rfl
@[simp] theorem State.setReg3_ports (k : Nat) (v : Reg3) : (s.setReg3 k v).ports = s.ports := rfl
@[simp] theorem State.setReg3_queues (k : Nat) (v : Reg3) : (s.setReg3 k v).queues = s.queues := rfl
@[simp] theorem State.setReg3_arbs (k : Nat) (v : Reg3) : (s.setReg3 k v).arbs = s.arbs := rfl
@[simp] theorem State.setReg3_home (k : Nat) (v : Reg3) : (s.setReg3 k v).home = s.home := rfl
@[simp] theorem State.setReg3_wp (k : Nat) (v : Reg3) : (s.setReg3 k v).wp = s.wp := rfl
@[simp] theorem State.setReg3_sto (k : Nat) (v : Reg3) : (s.setReg3 k v).sto = s.sto := rfl
@[simp] theorem State.setReg3_prk (k : Nat) (v : Reg3) : (s.setReg3 k v).prk = s.prk := rfl
@[simp] theorem State.setReg3_mem (k : Nat) (v : Reg3) : (s.setReg3 k v).mem = s.mem := rfl
@[simp] theorem State.setReg3_cry (k : Nat) (v : Reg3) : (s.setReg3 k v).cry = s.cry := rfl
@[simp] theorem State.setReg3_dma (k : Nat) (v : Reg3) : (s.setReg3 k v).dma = s.dma := rfl
@[simp] theorem State.setReg3_mgt (k : Nat) (v : Reg3) : (s.setReg3 k v).mgt = s.mgt := rfl
@[simp] theorem State.setReg3_saf (k : Nat) (v : Reg3) : (s.setReg3 k v).saf = s.saf := rfl
@[simp] theorem State.setReg3_cnts (k : Nat) (v : Reg3) : (s.setReg3 k v).cnts = s.cnts := rfl

@[simp] theorem State.putReg_pending (k : Nat) (v : Word) : (s.putReg k v).pending = s.pending := rfl
@[simp] theorem State.putReg_tick (k : Nat) (v : Word) : (s.putReg k v).tick = s.tick := rfl
@[simp] theorem State.putReg_fc (k : Nat) (v : Word) : (s.putReg k v).fc = s.fc := rfl
@[simp] theorem State.putReg_free (k : Nat) (v : Word) : (s.putReg k v).free = s.free := rfl
@[simp] theorem State.putReg_arrival (k : Nat) (v : Word) : (s.putReg k v).arrival = s.arrival := rfl
@[simp] theorem State.putReg_order (k : Nat) (v : Word) : (s.putReg k v).order = s.order := rfl
@[simp] theorem State.putReg_txHalf (k : Nat) (v : Word) : (s.putReg k v).txHalf = s.txHalf := rfl
@[simp] theorem State.putReg_ring (k : Nat) (v : Word) : (s.putReg k v).ring = s.ring := rfl
@[simp] theorem State.putReg_out (k : Nat) (v : Word) : (s.putReg k v).out = s.out := rfl
@[simp] theorem State.putReg_power (k : Nat) (v : Word) : (s.putReg k v).power = s.power := rfl
@[simp] theorem State.putReg_links (k : Nat) (v : Word) : (s.putReg k v).links = s.links := rfl
@[simp] theorem State.putReg_ports (k : Nat) (v : Word) : (s.putReg k v).ports = s.ports := rfl
@[simp] theorem State.putReg_queues (k : Nat) (v : Word) : (s.putReg k v).queues = s.queues := rfl
@[simp] theorem State.putReg_arbs (k : Nat) (v : Word) : (s.putReg k v).arbs = s.arbs := rfl
@[simp] theorem State.putReg_home (k : Nat) (v : Word) : (s.putReg k v).home = s.home := rfl
@[simp] theorem State.putReg_wp (k : Nat) (v : Word) : (s.putReg k v).wp = s.wp := rfl
@[simp] theorem State.putReg_sto (k : Nat) (v : Word) : (s.putReg k v).sto = s.sto := rfl
@[simp] theorem State.putReg_prk (k : Nat) (v : Word) : (s.putReg k v).prk = s.prk := rfl
@[simp] theorem State.putReg_mem (k : Nat) (v : Word) : (s.putReg k v).mem = s.mem := rfl
@[simp] theorem State.putReg_cry (k : Nat) (v : Word) : (s.putReg k v).cry = s.cry := rfl
@[simp] theorem State.putReg_dma (k : Nat) (v : Word) : (s.putReg k v).dma = s.dma := rfl
@[simp] theorem State.putReg_mgt (k : Nat) (v : Word) : (s.putReg k v).mgt = s.mgt := rfl
@[simp] theorem State.putReg_saf (k : Nat) (v : Word) : (s.putReg k v).saf = s.saf := rfl
@[simp] theorem State.putReg_cnts (k : Nat) (v : Word) : (s.putReg k v).cnts = s.cnts := rfl

@[simp] theorem State.emit_pending (o : Out) : (s.emit o).pending = s.pending := rfl
@[simp] theorem State.emit_tick (o : Out) : (s.emit o).tick = s.tick := rfl
@[simp] theorem State.emit_fc (o : Out) : (s.emit o).fc = s.fc := rfl
@[simp] theorem State.emit_free (o : Out) : (s.emit o).free = s.free := rfl
@[simp] theorem State.emit_arrival (o : Out) : (s.emit o).arrival = s.arrival := rfl
@[simp] theorem State.emit_order (o : Out) : (s.emit o).order = s.order := rfl
@[simp] theorem State.emit_txHalf (o : Out) : (s.emit o).txHalf = s.txHalf := rfl
@[simp] theorem State.emit_ring (o : Out) : (s.emit o).ring = s.ring := rfl
@[simp] theorem State.emit_csr (o : Out) : (s.emit o).csr = s.csr := rfl
@[simp] theorem State.emit_power (o : Out) : (s.emit o).power = s.power := rfl
@[simp] theorem State.emit_links (o : Out) : (s.emit o).links = s.links := rfl
@[simp] theorem State.emit_ports (o : Out) : (s.emit o).ports = s.ports := rfl
@[simp] theorem State.emit_queues (o : Out) : (s.emit o).queues = s.queues := rfl
@[simp] theorem State.emit_arbs (o : Out) : (s.emit o).arbs = s.arbs := rfl
@[simp] theorem State.emit_home (o : Out) : (s.emit o).home = s.home := rfl
@[simp] theorem State.emit_wp (o : Out) : (s.emit o).wp = s.wp := rfl
@[simp] theorem State.emit_sto (o : Out) : (s.emit o).sto = s.sto := rfl
@[simp] theorem State.emit_prk (o : Out) : (s.emit o).prk = s.prk := rfl
@[simp] theorem State.emit_mem (o : Out) : (s.emit o).mem = s.mem := rfl
@[simp] theorem State.emit_cry (o : Out) : (s.emit o).cry = s.cry := rfl
@[simp] theorem State.emit_dma (o : Out) : (s.emit o).dma = s.dma := rfl
@[simp] theorem State.emit_mgt (o : Out) : (s.emit o).mgt = s.mgt := rfl
@[simp] theorem State.emit_saf (o : Out) : (s.emit o).saf = s.saf := rfl
@[simp] theorem State.emit_cnts (o : Out) : (s.emit o).cnts = s.cnts := rfl
@[simp] theorem State.emit_out (o : Out) : (s.emit o).out = s.out ++ [o] := rfl

@[simp] theorem State.setPower_pending (v : Power) : (s.setPower v).pending = s.pending := rfl
@[simp] theorem State.setPower_tick (v : Power) : (s.setPower v).tick = s.tick := rfl
@[simp] theorem State.setPower_fc (v : Power) : (s.setPower v).fc = s.fc := rfl
@[simp] theorem State.setPower_free (v : Power) : (s.setPower v).free = s.free := rfl
@[simp] theorem State.setPower_arrival (v : Power) : (s.setPower v).arrival = s.arrival := rfl
@[simp] theorem State.setPower_order (v : Power) : (s.setPower v).order = s.order := rfl
@[simp] theorem State.setPower_txHalf (v : Power) : (s.setPower v).txHalf = s.txHalf := rfl
@[simp] theorem State.setPower_ring (v : Power) : (s.setPower v).ring = s.ring := rfl
@[simp] theorem State.setPower_out (v : Power) : (s.setPower v).out = s.out := rfl
@[simp] theorem State.setPower_csr (v : Power) : (s.setPower v).csr = s.csr := rfl
@[simp] theorem State.setPower_links (v : Power) : (s.setPower v).links = s.links := rfl
@[simp] theorem State.setPower_ports (v : Power) : (s.setPower v).ports = s.ports := rfl
@[simp] theorem State.setPower_queues (v : Power) : (s.setPower v).queues = s.queues := rfl
@[simp] theorem State.setPower_arbs (v : Power) : (s.setPower v).arbs = s.arbs := rfl
@[simp] theorem State.setPower_home (v : Power) : (s.setPower v).home = s.home := rfl
@[simp] theorem State.setPower_wp (v : Power) : (s.setPower v).wp = s.wp := rfl
@[simp] theorem State.setPower_sto (v : Power) : (s.setPower v).sto = s.sto := rfl
@[simp] theorem State.setPower_prk (v : Power) : (s.setPower v).prk = s.prk := rfl
@[simp] theorem State.setPower_mem (v : Power) : (s.setPower v).mem = s.mem := rfl
@[simp] theorem State.setPower_cry (v : Power) : (s.setPower v).cry = s.cry := rfl
@[simp] theorem State.setPower_dma (v : Power) : (s.setPower v).dma = s.dma := rfl
@[simp] theorem State.setPower_mgt (v : Power) : (s.setPower v).mgt = s.mgt := rfl
@[simp] theorem State.setPower_saf (v : Power) : (s.setPower v).saf = s.saf := rfl
@[simp] theorem State.setPower_cnts (v : Power) : (s.setPower v).cnts = s.cnts := rfl
@[simp] theorem State.setPower_power (v : Power) : (s.setPower v).power = v := rfl

@[simp] theorem State.setMgt_pending (v : Mgt) : (s.setMgt v).pending = s.pending := rfl
@[simp] theorem State.setMgt_tick (v : Mgt) : (s.setMgt v).tick = s.tick := rfl
@[simp] theorem State.setMgt_fc (v : Mgt) : (s.setMgt v).fc = s.fc := rfl
@[simp] theorem State.setMgt_free (v : Mgt) : (s.setMgt v).free = s.free := rfl
@[simp] theorem State.setMgt_arrival (v : Mgt) : (s.setMgt v).arrival = s.arrival := rfl
@[simp] theorem State.setMgt_order (v : Mgt) : (s.setMgt v).order = s.order := rfl
@[simp] theorem State.setMgt_txHalf (v : Mgt) : (s.setMgt v).txHalf = s.txHalf := rfl
@[simp] theorem State.setMgt_ring (v : Mgt) : (s.setMgt v).ring = s.ring := rfl
@[simp] theorem State.setMgt_out (v : Mgt) : (s.setMgt v).out = s.out := rfl
@[simp] theorem State.setMgt_csr (v : Mgt) : (s.setMgt v).csr = s.csr := rfl
@[simp] theorem State.setMgt_power (v : Mgt) : (s.setMgt v).power = s.power := rfl
@[simp] theorem State.setMgt_links (v : Mgt) : (s.setMgt v).links = s.links := rfl
@[simp] theorem State.setMgt_ports (v : Mgt) : (s.setMgt v).ports = s.ports := rfl
@[simp] theorem State.setMgt_queues (v : Mgt) : (s.setMgt v).queues = s.queues := rfl
@[simp] theorem State.setMgt_arbs (v : Mgt) : (s.setMgt v).arbs = s.arbs := rfl
@[simp] theorem State.setMgt_home (v : Mgt) : (s.setMgt v).home = s.home := rfl
@[simp] theorem State.setMgt_wp (v : Mgt) : (s.setMgt v).wp = s.wp := rfl
@[simp] theorem State.setMgt_sto (v : Mgt) : (s.setMgt v).sto = s.sto := rfl
@[simp] theorem State.setMgt_prk (v : Mgt) : (s.setMgt v).prk = s.prk := rfl
@[simp] theorem State.setMgt_mem (v : Mgt) : (s.setMgt v).mem = s.mem := rfl
@[simp] theorem State.setMgt_cry (v : Mgt) : (s.setMgt v).cry = s.cry := rfl
@[simp] theorem State.setMgt_dma (v : Mgt) : (s.setMgt v).dma = s.dma := rfl
@[simp] theorem State.setMgt_saf (v : Mgt) : (s.setMgt v).saf = s.saf := rfl
@[simp] theorem State.setMgt_cnts (v : Mgt) : (s.setMgt v).cnts = s.cnts := rfl
@[simp] theorem State.setMgt_mgt (v : Mgt) : (s.setMgt v).mgt = v := rfl

@[simp] theorem State.setSaf_pending (v : Saf) : (s.setSaf v).pending = s.pending := rfl
@[simp] theorem State.setSaf_tick (v : Saf) : (s.setSaf v).tick = s.tick := rfl
@[simp] theorem State.setSaf_fc (v : Saf) : (s.setSaf v).fc = s.fc := rfl
@[simp] theorem State.setSaf_free (v : Saf) : (s.setSaf v).free = s.free := rfl
@[simp] theorem State.setSaf_arrival (v : Saf) : (s.setSaf v).arrival = s.arrival := rfl
@[simp] theorem State.setSaf_order (v : Saf) : (s.setSaf v).order = s.order := rfl
@[simp] theorem State.setSaf_txHalf (v : Saf) : (s.setSaf v).txHalf = s.txHalf := rfl
@[simp] theorem State.setSaf_ring (v : Saf) : (s.setSaf v).ring = s.ring := rfl
@[simp] theorem State.setSaf_out (v : Saf) : (s.setSaf v).out = s.out := rfl
@[simp] theorem State.setSaf_csr (v : Saf) : (s.setSaf v).csr = s.csr := rfl
@[simp] theorem State.setSaf_power (v : Saf) : (s.setSaf v).power = s.power := rfl
@[simp] theorem State.setSaf_links (v : Saf) : (s.setSaf v).links = s.links := rfl
@[simp] theorem State.setSaf_ports (v : Saf) : (s.setSaf v).ports = s.ports := rfl
@[simp] theorem State.setSaf_queues (v : Saf) : (s.setSaf v).queues = s.queues := rfl
@[simp] theorem State.setSaf_arbs (v : Saf) : (s.setSaf v).arbs = s.arbs := rfl
@[simp] theorem State.setSaf_home (v : Saf) : (s.setSaf v).home = s.home := rfl
@[simp] theorem State.setSaf_wp (v : Saf) : (s.setSaf v).wp = s.wp := rfl
@[simp] theorem State.setSaf_sto (v : Saf) : (s.setSaf v).sto = s.sto := rfl
@[simp] theorem State.setSaf_prk (v : Saf) : (s.setSaf v).prk = s.prk := rfl
@[simp] theorem State.setSaf_mem (v : Saf) : (s.setSaf v).mem = s.mem := rfl
@[simp] theorem State.setSaf_cry (v : Saf) : (s.setSaf v).cry = s.cry := rfl
@[simp] theorem State.setSaf_dma (v : Saf) : (s.setSaf v).dma = s.dma := rfl
@[simp] theorem State.setSaf_mgt (v : Saf) : (s.setSaf v).mgt = s.mgt := rfl
@[simp] theorem State.setSaf_cnts (v : Saf) : (s.setSaf v).cnts = s.cnts := rfl
@[simp] theorem State.setSaf_saf (v : Saf) : (s.setSaf v).saf = v := rfl

@[simp] theorem State.setPrk_pending (v : Park) : (s.setPrk v).pending = s.pending := rfl
@[simp] theorem State.setPrk_tick (v : Park) : (s.setPrk v).tick = s.tick := rfl
@[simp] theorem State.setPrk_fc (v : Park) : (s.setPrk v).fc = s.fc := rfl
@[simp] theorem State.setPrk_free (v : Park) : (s.setPrk v).free = s.free := rfl
@[simp] theorem State.setPrk_arrival (v : Park) : (s.setPrk v).arrival = s.arrival := rfl
@[simp] theorem State.setPrk_order (v : Park) : (s.setPrk v).order = s.order := rfl
@[simp] theorem State.setPrk_txHalf (v : Park) : (s.setPrk v).txHalf = s.txHalf := rfl
@[simp] theorem State.setPrk_ring (v : Park) : (s.setPrk v).ring = s.ring := rfl
@[simp] theorem State.setPrk_out (v : Park) : (s.setPrk v).out = s.out := rfl
@[simp] theorem State.setPrk_csr (v : Park) : (s.setPrk v).csr = s.csr := rfl
@[simp] theorem State.setPrk_power (v : Park) : (s.setPrk v).power = s.power := rfl
@[simp] theorem State.setPrk_links (v : Park) : (s.setPrk v).links = s.links := rfl
@[simp] theorem State.setPrk_ports (v : Park) : (s.setPrk v).ports = s.ports := rfl
@[simp] theorem State.setPrk_queues (v : Park) : (s.setPrk v).queues = s.queues := rfl
@[simp] theorem State.setPrk_arbs (v : Park) : (s.setPrk v).arbs = s.arbs := rfl
@[simp] theorem State.setPrk_home (v : Park) : (s.setPrk v).home = s.home := rfl
@[simp] theorem State.setPrk_wp (v : Park) : (s.setPrk v).wp = s.wp := rfl
@[simp] theorem State.setPrk_sto (v : Park) : (s.setPrk v).sto = s.sto := rfl
@[simp] theorem State.setPrk_mem (v : Park) : (s.setPrk v).mem = s.mem := rfl
@[simp] theorem State.setPrk_cry (v : Park) : (s.setPrk v).cry = s.cry := rfl
@[simp] theorem State.setPrk_dma (v : Park) : (s.setPrk v).dma = s.dma := rfl
@[simp] theorem State.setPrk_mgt (v : Park) : (s.setPrk v).mgt = s.mgt := rfl
@[simp] theorem State.setPrk_saf (v : Park) : (s.setPrk v).saf = s.saf := rfl
@[simp] theorem State.setPrk_cnts (v : Park) : (s.setPrk v).cnts = s.cnts := rfl
@[simp] theorem State.setPrk_prk (v : Park) : (s.setPrk v).prk = v := rfl

@[simp] theorem State.setSto_pending (v : Store) : (s.setSto v).pending = s.pending := rfl
@[simp] theorem State.setSto_tick (v : Store) : (s.setSto v).tick = s.tick := rfl
@[simp] theorem State.setSto_fc (v : Store) : (s.setSto v).fc = s.fc := rfl
@[simp] theorem State.setSto_free (v : Store) : (s.setSto v).free = s.free := rfl
@[simp] theorem State.setSto_arrival (v : Store) : (s.setSto v).arrival = s.arrival := rfl
@[simp] theorem State.setSto_order (v : Store) : (s.setSto v).order = s.order := rfl
@[simp] theorem State.setSto_txHalf (v : Store) : (s.setSto v).txHalf = s.txHalf := rfl
@[simp] theorem State.setSto_ring (v : Store) : (s.setSto v).ring = s.ring := rfl
@[simp] theorem State.setSto_out (v : Store) : (s.setSto v).out = s.out := rfl
@[simp] theorem State.setSto_csr (v : Store) : (s.setSto v).csr = s.csr := rfl
@[simp] theorem State.setSto_power (v : Store) : (s.setSto v).power = s.power := rfl
@[simp] theorem State.setSto_links (v : Store) : (s.setSto v).links = s.links := rfl
@[simp] theorem State.setSto_ports (v : Store) : (s.setSto v).ports = s.ports := rfl
@[simp] theorem State.setSto_queues (v : Store) : (s.setSto v).queues = s.queues := rfl
@[simp] theorem State.setSto_arbs (v : Store) : (s.setSto v).arbs = s.arbs := rfl
@[simp] theorem State.setSto_home (v : Store) : (s.setSto v).home = s.home := rfl
@[simp] theorem State.setSto_wp (v : Store) : (s.setSto v).wp = s.wp := rfl
@[simp] theorem State.setSto_prk (v : Store) : (s.setSto v).prk = s.prk := rfl
@[simp] theorem State.setSto_mem (v : Store) : (s.setSto v).mem = s.mem := rfl
@[simp] theorem State.setSto_cry (v : Store) : (s.setSto v).cry = s.cry := rfl
@[simp] theorem State.setSto_dma (v : Store) : (s.setSto v).dma = s.dma := rfl
@[simp] theorem State.setSto_mgt (v : Store) : (s.setSto v).mgt = s.mgt := rfl
@[simp] theorem State.setSto_saf (v : Store) : (s.setSto v).saf = s.saf := rfl
@[simp] theorem State.setSto_cnts (v : Store) : (s.setSto v).cnts = s.cnts := rfl
@[simp] theorem State.setSto_sto (v : Store) : (s.setSto v).sto = v := rfl

@[simp] theorem State.setCry_pending (v : Crypt) : (s.setCry v).pending = s.pending := rfl
@[simp] theorem State.setCry_tick (v : Crypt) : (s.setCry v).tick = s.tick := rfl
@[simp] theorem State.setCry_fc (v : Crypt) : (s.setCry v).fc = s.fc := rfl
@[simp] theorem State.setCry_free (v : Crypt) : (s.setCry v).free = s.free := rfl
@[simp] theorem State.setCry_arrival (v : Crypt) : (s.setCry v).arrival = s.arrival := rfl
@[simp] theorem State.setCry_order (v : Crypt) : (s.setCry v).order = s.order := rfl
@[simp] theorem State.setCry_txHalf (v : Crypt) : (s.setCry v).txHalf = s.txHalf := rfl
@[simp] theorem State.setCry_ring (v : Crypt) : (s.setCry v).ring = s.ring := rfl
@[simp] theorem State.setCry_out (v : Crypt) : (s.setCry v).out = s.out := rfl
@[simp] theorem State.setCry_csr (v : Crypt) : (s.setCry v).csr = s.csr := rfl
@[simp] theorem State.setCry_power (v : Crypt) : (s.setCry v).power = s.power := rfl
@[simp] theorem State.setCry_links (v : Crypt) : (s.setCry v).links = s.links := rfl
@[simp] theorem State.setCry_ports (v : Crypt) : (s.setCry v).ports = s.ports := rfl
@[simp] theorem State.setCry_queues (v : Crypt) : (s.setCry v).queues = s.queues := rfl
@[simp] theorem State.setCry_arbs (v : Crypt) : (s.setCry v).arbs = s.arbs := rfl
@[simp] theorem State.setCry_home (v : Crypt) : (s.setCry v).home = s.home := rfl
@[simp] theorem State.setCry_wp (v : Crypt) : (s.setCry v).wp = s.wp := rfl
@[simp] theorem State.setCry_sto (v : Crypt) : (s.setCry v).sto = s.sto := rfl
@[simp] theorem State.setCry_prk (v : Crypt) : (s.setCry v).prk = s.prk := rfl
@[simp] theorem State.setCry_mem (v : Crypt) : (s.setCry v).mem = s.mem := rfl
@[simp] theorem State.setCry_dma (v : Crypt) : (s.setCry v).dma = s.dma := rfl
@[simp] theorem State.setCry_mgt (v : Crypt) : (s.setCry v).mgt = s.mgt := rfl
@[simp] theorem State.setCry_saf (v : Crypt) : (s.setCry v).saf = s.saf := rfl
@[simp] theorem State.setCry_cnts (v : Crypt) : (s.setCry v).cnts = s.cnts := rfl
@[simp] theorem State.setCry_cry (v : Crypt) : (s.setCry v).cry = v := rfl

@[simp] theorem State.setMem_pending (v : Mem) : (s.setMem v).pending = s.pending := rfl
@[simp] theorem State.setMem_tick (v : Mem) : (s.setMem v).tick = s.tick := rfl
@[simp] theorem State.setMem_fc (v : Mem) : (s.setMem v).fc = s.fc := rfl
@[simp] theorem State.setMem_free (v : Mem) : (s.setMem v).free = s.free := rfl
@[simp] theorem State.setMem_arrival (v : Mem) : (s.setMem v).arrival = s.arrival := rfl
@[simp] theorem State.setMem_order (v : Mem) : (s.setMem v).order = s.order := rfl
@[simp] theorem State.setMem_txHalf (v : Mem) : (s.setMem v).txHalf = s.txHalf := rfl
@[simp] theorem State.setMem_ring (v : Mem) : (s.setMem v).ring = s.ring := rfl
@[simp] theorem State.setMem_out (v : Mem) : (s.setMem v).out = s.out := rfl
@[simp] theorem State.setMem_csr (v : Mem) : (s.setMem v).csr = s.csr := rfl
@[simp] theorem State.setMem_power (v : Mem) : (s.setMem v).power = s.power := rfl
@[simp] theorem State.setMem_links (v : Mem) : (s.setMem v).links = s.links := rfl
@[simp] theorem State.setMem_ports (v : Mem) : (s.setMem v).ports = s.ports := rfl
@[simp] theorem State.setMem_queues (v : Mem) : (s.setMem v).queues = s.queues := rfl
@[simp] theorem State.setMem_arbs (v : Mem) : (s.setMem v).arbs = s.arbs := rfl
@[simp] theorem State.setMem_home (v : Mem) : (s.setMem v).home = s.home := rfl
@[simp] theorem State.setMem_wp (v : Mem) : (s.setMem v).wp = s.wp := rfl
@[simp] theorem State.setMem_sto (v : Mem) : (s.setMem v).sto = s.sto := rfl
@[simp] theorem State.setMem_prk (v : Mem) : (s.setMem v).prk = s.prk := rfl
@[simp] theorem State.setMem_cry (v : Mem) : (s.setMem v).cry = s.cry := rfl
@[simp] theorem State.setMem_dma (v : Mem) : (s.setMem v).dma = s.dma := rfl
@[simp] theorem State.setMem_mgt (v : Mem) : (s.setMem v).mgt = s.mgt := rfl
@[simp] theorem State.setMem_saf (v : Mem) : (s.setMem v).saf = s.saf := rfl
@[simp] theorem State.setMem_cnts (v : Mem) : (s.setMem v).cnts = s.cnts := rfl
@[simp] theorem State.setMem_mem (v : Mem) : (s.setMem v).mem = v := rfl

@[simp] theorem State.setWp_pending (v : Waypoint) : (s.setWp v).pending = s.pending := rfl
@[simp] theorem State.setWp_tick (v : Waypoint) : (s.setWp v).tick = s.tick := rfl
@[simp] theorem State.setWp_fc (v : Waypoint) : (s.setWp v).fc = s.fc := rfl
@[simp] theorem State.setWp_free (v : Waypoint) : (s.setWp v).free = s.free := rfl
@[simp] theorem State.setWp_arrival (v : Waypoint) : (s.setWp v).arrival = s.arrival := rfl
@[simp] theorem State.setWp_order (v : Waypoint) : (s.setWp v).order = s.order := rfl
@[simp] theorem State.setWp_txHalf (v : Waypoint) : (s.setWp v).txHalf = s.txHalf := rfl
@[simp] theorem State.setWp_ring (v : Waypoint) : (s.setWp v).ring = s.ring := rfl
@[simp] theorem State.setWp_out (v : Waypoint) : (s.setWp v).out = s.out := rfl
@[simp] theorem State.setWp_csr (v : Waypoint) : (s.setWp v).csr = s.csr := rfl
@[simp] theorem State.setWp_power (v : Waypoint) : (s.setWp v).power = s.power := rfl
@[simp] theorem State.setWp_links (v : Waypoint) : (s.setWp v).links = s.links := rfl
@[simp] theorem State.setWp_ports (v : Waypoint) : (s.setWp v).ports = s.ports := rfl
@[simp] theorem State.setWp_queues (v : Waypoint) : (s.setWp v).queues = s.queues := rfl
@[simp] theorem State.setWp_arbs (v : Waypoint) : (s.setWp v).arbs = s.arbs := rfl
@[simp] theorem State.setWp_home (v : Waypoint) : (s.setWp v).home = s.home := rfl
@[simp] theorem State.setWp_sto (v : Waypoint) : (s.setWp v).sto = s.sto := rfl
@[simp] theorem State.setWp_prk (v : Waypoint) : (s.setWp v).prk = s.prk := rfl
@[simp] theorem State.setWp_mem (v : Waypoint) : (s.setWp v).mem = s.mem := rfl
@[simp] theorem State.setWp_cry (v : Waypoint) : (s.setWp v).cry = s.cry := rfl
@[simp] theorem State.setWp_dma (v : Waypoint) : (s.setWp v).dma = s.dma := rfl
@[simp] theorem State.setWp_mgt (v : Waypoint) : (s.setWp v).mgt = s.mgt := rfl
@[simp] theorem State.setWp_saf (v : Waypoint) : (s.setWp v).saf = s.saf := rfl
@[simp] theorem State.setWp_cnts (v : Waypoint) : (s.setWp v).cnts = s.cnts := rfl
@[simp] theorem State.setWp_wp (v : Waypoint) : (s.setWp v).wp = v := rfl

@[simp] theorem State.setHome_pending (v : Home) : (s.setHome v).pending = s.pending := rfl
@[simp] theorem State.setHome_tick (v : Home) : (s.setHome v).tick = s.tick := rfl
@[simp] theorem State.setHome_fc (v : Home) : (s.setHome v).fc = s.fc := rfl
@[simp] theorem State.setHome_free (v : Home) : (s.setHome v).free = s.free := rfl
@[simp] theorem State.setHome_arrival (v : Home) : (s.setHome v).arrival = s.arrival := rfl
@[simp] theorem State.setHome_order (v : Home) : (s.setHome v).order = s.order := rfl
@[simp] theorem State.setHome_txHalf (v : Home) : (s.setHome v).txHalf = s.txHalf := rfl
@[simp] theorem State.setHome_ring (v : Home) : (s.setHome v).ring = s.ring := rfl
@[simp] theorem State.setHome_out (v : Home) : (s.setHome v).out = s.out := rfl
@[simp] theorem State.setHome_csr (v : Home) : (s.setHome v).csr = s.csr := rfl
@[simp] theorem State.setHome_power (v : Home) : (s.setHome v).power = s.power := rfl
@[simp] theorem State.setHome_links (v : Home) : (s.setHome v).links = s.links := rfl
@[simp] theorem State.setHome_ports (v : Home) : (s.setHome v).ports = s.ports := rfl
@[simp] theorem State.setHome_queues (v : Home) : (s.setHome v).queues = s.queues := rfl
@[simp] theorem State.setHome_arbs (v : Home) : (s.setHome v).arbs = s.arbs := rfl
@[simp] theorem State.setHome_wp (v : Home) : (s.setHome v).wp = s.wp := rfl
@[simp] theorem State.setHome_sto (v : Home) : (s.setHome v).sto = s.sto := rfl
@[simp] theorem State.setHome_prk (v : Home) : (s.setHome v).prk = s.prk := rfl
@[simp] theorem State.setHome_mem (v : Home) : (s.setHome v).mem = s.mem := rfl
@[simp] theorem State.setHome_cry (v : Home) : (s.setHome v).cry = s.cry := rfl
@[simp] theorem State.setHome_dma (v : Home) : (s.setHome v).dma = s.dma := rfl
@[simp] theorem State.setHome_mgt (v : Home) : (s.setHome v).mgt = s.mgt := rfl
@[simp] theorem State.setHome_saf (v : Home) : (s.setHome v).saf = s.saf := rfl
@[simp] theorem State.setHome_cnts (v : Home) : (s.setHome v).cnts = s.cnts := rfl
@[simp] theorem State.setHome_home (v : Home) : (s.setHome v).home = v := rfl

@[simp] theorem State.setSlot_home_filter (k : Nat) (v : Option Slot) : (s.setSlot k v).home.filter = s.home.filter := rfl
@[simp] theorem State.setSlot_home_chains (k : Nat) (v : Option Slot) : (s.setSlot k v).home.chains = s.home.chains := rfl
@[simp] theorem State.setSlot_home_heldSet (k : Nat) (v : Option Slot) : (s.setSlot k v).home.heldSet = s.home.heldSet := rfl
@[simp] theorem State.setSlot_home_wide (k : Nat) (v : Option Slot) : (s.setSlot k v).home.wide = s.home.wide := rfl
@[simp] theorem State.setSlot_home_dead (k : Nat) (v : Option Slot) : (s.setSlot k v).home.dead = s.home.dead := rfl
@[simp] theorem State.setSlot_home_claimLink (k : Nat) (v : Option Slot) : (s.setSlot k v).home.claimLink = s.home.claimLink := rfl
@[simp] theorem State.setSlot_home_claimKind (k : Nat) (v : Option Slot) : (s.setSlot k v).home.claimKind = s.home.claimKind := rfl
@[simp] theorem State.setSlot_home_poisoned (k : Nat) (v : Option Slot) : (s.setSlot k v).home.poisoned = s.home.poisoned := rfl
@[simp] theorem State.setSlot_home_recovering (k : Nat) (v : Option Slot) : (s.setSlot k v).home.recovering = s.home.recovering := rfl
@[simp] theorem State.setSlot_home_recallDue (k : Nat) (v : Option Slot) : (s.setSlot k v).home.recallDue = s.home.recallDue := rfl
@[simp] theorem State.setSlot_home_snooped (k : Nat) (v : Option Slot) : (s.setSlot k v).home.snooped = s.home.snooped := rfl
@[simp] theorem State.setFent_home_slots (k : Nat) (v : Option FEnt) : (s.setFent k v).home.slots = s.home.slots := rfl
@[simp] theorem State.setFent_home_chains (k : Nat) (v : Option FEnt) : (s.setFent k v).home.chains = s.home.chains := rfl
@[simp] theorem State.setFent_home_heldSet (k : Nat) (v : Option FEnt) : (s.setFent k v).home.heldSet = s.home.heldSet := rfl
@[simp] theorem State.setFent_home_wide (k : Nat) (v : Option FEnt) : (s.setFent k v).home.wide = s.home.wide := rfl
@[simp] theorem State.setFent_home_dead (k : Nat) (v : Option FEnt) : (s.setFent k v).home.dead = s.home.dead := rfl
@[simp] theorem State.setFent_home_claimLink (k : Nat) (v : Option FEnt) : (s.setFent k v).home.claimLink = s.home.claimLink := rfl
@[simp] theorem State.setFent_home_claimKind (k : Nat) (v : Option FEnt) : (s.setFent k v).home.claimKind = s.home.claimKind := rfl
@[simp] theorem State.setFent_home_poisoned (k : Nat) (v : Option FEnt) : (s.setFent k v).home.poisoned = s.home.poisoned := rfl
@[simp] theorem State.setFent_home_recovering (k : Nat) (v : Option FEnt) : (s.setFent k v).home.recovering = s.home.recovering := rfl
@[simp] theorem State.setFent_home_recallDue (k : Nat) (v : Option FEnt) : (s.setFent k v).home.recallDue = s.home.recallDue := rfl
@[simp] theorem State.setFent_home_snooped (k : Nat) (v : Option FEnt) : (s.setFent k v).home.snooped = s.home.snooped := rfl
@[simp] theorem State.setChain_home_slots (k : Nat) (v : List Nat) : (s.setChain k v).home.slots = s.home.slots := rfl
@[simp] theorem State.setChain_home_filter (k : Nat) (v : List Nat) : (s.setChain k v).home.filter = s.home.filter := rfl
@[simp] theorem State.setChain_home_heldSet (k : Nat) (v : List Nat) : (s.setChain k v).home.heldSet = s.home.heldSet := rfl
@[simp] theorem State.setChain_home_wide (k : Nat) (v : List Nat) : (s.setChain k v).home.wide = s.home.wide := rfl
@[simp] theorem State.setChain_home_dead (k : Nat) (v : List Nat) : (s.setChain k v).home.dead = s.home.dead := rfl
@[simp] theorem State.setChain_home_claimLink (k : Nat) (v : List Nat) : (s.setChain k v).home.claimLink = s.home.claimLink := rfl
@[simp] theorem State.setChain_home_claimKind (k : Nat) (v : List Nat) : (s.setChain k v).home.claimKind = s.home.claimKind := rfl
@[simp] theorem State.setChain_home_poisoned (k : Nat) (v : List Nat) : (s.setChain k v).home.poisoned = s.home.poisoned := rfl
@[simp] theorem State.setChain_home_recovering (k : Nat) (v : List Nat) : (s.setChain k v).home.recovering = s.home.recovering := rfl
@[simp] theorem State.setChain_home_recallDue (k : Nat) (v : List Nat) : (s.setChain k v).home.recallDue = s.home.recallDue := rfl
@[simp] theorem State.setChain_home_snooped (k : Nat) (v : List Nat) : (s.setChain k v).home.snooped = s.home.snooped := rfl

@[simp] theorem State.norm_pending : s.norm.pending = s.pending := rfl
@[simp] theorem State.norm_tick : s.norm.tick = s.tick := rfl
@[simp] theorem State.norm_fc : s.norm.fc = s.fc := rfl
@[simp] theorem State.norm_free : s.norm.free = s.free := rfl
@[simp] theorem State.norm_arrival : s.norm.arrival = s.arrival := rfl
@[simp] theorem State.norm_order : s.norm.order = s.order := rfl
@[simp] theorem State.norm_ring : s.norm.ring = s.ring := rfl
@[simp] theorem State.norm_out : s.norm.out = s.out := rfl
@[simp] theorem State.norm_power : s.norm.power = s.power := rfl
@[simp] theorem State.norm_saf : s.norm.saf = s.saf := rfl

end Sys2Proof.Machine
end

