-- ==== Sys2Proof/Laws/Table.lean ====
section
/-! SUPPORT. Laws of the sparse tables: a read after a write, the canonical form and its normalisation. -/
namespace Sys2Proof.Machine

variable {α : Type}

/-- Every key of the table lies above `k`. -/
def tabove (k : Nat) (t : Tbl α) : Prop := ∀ e ∈ t, k < e.1

@[simp] theorem tget_nil (d : Nat → α) (k : Nat) : tget d [] k = d k := rfl

theorem tget_cons (d : Nat → α) (j : Nat) (v : α) (r : Tbl α) (k : Nat) :
    tget d ((j, v) :: r) k = if j = k then v else tget d r k := rfl

theorem tget_tput (d : Nat → α) (k : Nat) (v : α) (t : Tbl α) (j : Nat) :
    tget d (tput k v t) j = if j = k then v else tget d t j := by
  induction t with
  | nil => simp [tput, tget_cons, eq_comm]
  | cons e r ih =>
    obtain ⟨m, w⟩ := e
    simp only [tput]
    split
    · rw [tget_cons]; simp [eq_comm]
    · split
      · subst_vars; simp only [tget_cons]; grind
      · simp only [tget_cons, ih]; grind

theorem tget_above (d : Nat → α) (t : Tbl α) (k : Nat) (h : tabove k t) : tget d t k = d k := by
  induction t with
  | nil => rfl
  | cons e r ih =>
    obtain ⟨m, w⟩ := e
    have hm : k < m := h (m, w) (by simp)
    rw [tget_cons, if_neg (by omega)]
    exact ih (fun x hx => h x (by simp [hx]))

theorem trising_cons (m : Nat) (w : α) (r : Tbl α) :
    trising ((m, w) :: r) = true ↔ tabove m r ∧ trising r = true := by
  induction r generalizing m w with
  | nil => simp [trising, tabove]
  | cons e r ih =>
    obtain ⟨k, v⟩ := e
    simp only [trising, Bool.and_eq_true, decide_eq_true_eq]
    constructor
    · rintro ⟨hk, hr⟩
      refine ⟨?_, hr⟩
      intro x hx
      rcases List.mem_cons.1 hx with rfl | hx
      · exact hk
      · exact Nat.lt_trans hk (((ih k v).1 hr).1 x hx)
    · rintro ⟨ha, hr⟩
      exact ⟨ha (k, v) (by simp), hr⟩

theorem tget_tdel (d : Nat → α) (k : Nat) (t : Tbl α) (j : Nat) (h : trising t = true) :
    tget d (tdel k t) j = if j = k then d k else tget d t j := by
  induction t with
  | nil => simp only [tdel, tget_nil]; grind
  | cons e r ih =>
    obtain ⟨m, w⟩ := e
    have hr := (trising_cons m w r).1 h
    simp only [tdel]
    split
    · subst_vars
      by_cases hj : j = m
      · subst hj; simp [tget_above d r j hr.1]
      · simp [hj, tget_cons]; grind
    · simp only [tget_cons, ih hr.2]; grind

theorem twf_iff [DecidableEq α] (d : Nat → α) (t : Tbl α) :
    twf d t = true ↔ trising t = true ∧ ∀ e ∈ t, e.2 ≠ d e.1 := by
  simp [twf]

/-- Read after write: the written key gives the value, every other key what it gave. -/
theorem tget_tset [DecidableEq α] (d : Nat → α) (t : Tbl α) (k : Nat) (v : α) (j : Nat) (h : twf d t = true) :
    tget d (tset d t k v) j = if j = k then v else tget d t j := by
  unfold tset
  split
  · next hv => subst hv; exact tget_tdel d k t j ((twf_iff d t).1 h).1
  · exact tget_tput d k v t j

theorem tabove_tput (m k : Nat) (v : α) (t : Tbl α) (hk : m < k) (h : tabove m t) : tabove m (tput k v t) := by
  induction t with
  | nil => intro e he; simp [tput] at he; subst he; exact hk
  | cons e r ih =>
    obtain ⟨j, w⟩ := e
    have hr : tabove m r := fun x hx => h x (by simp [hx])
    have hj : m < j := h (j, w) (by simp)
    intro x hx
    simp only [tput] at hx
    split at hx
    · simp at hx; rcases hx with rfl | rfl | hx
      · exact hk
      · exact hj
      · exact hr x hx
    · split at hx
      · simp at hx; rcases hx with rfl | hx
        · exact hk
        · exact hr x hx
      · simp at hx; rcases hx with rfl | hx
        · exact hj
        · exact ih hr x hx

theorem mem_tdel (k : Nat) (t : Tbl α) (e : Nat × α) (h : e ∈ tdel k t) : e ∈ t := by
  induction t with
  | nil => simp [tdel] at h
  | cons x r ih =>
    obtain ⟨j, w⟩ := x
    simp only [tdel] at h
    split at h
    · simp [h]
    · rcases List.mem_cons.1 h with rfl | h
      · simp
      · simp [ih h]

theorem mem_tput (k : Nat) (v : α) (t : Tbl α) (e : Nat × α) (h : e ∈ tput k v t) : e = (k, v) ∨ e ∈ t := by
  induction t with
  | nil => simp [tput] at h; exact .inl h
  | cons x r ih =>
    obtain ⟨j, w⟩ := x
    simp only [tput] at h
    split at h
    · simpa using h
    · split at h
      · rcases List.mem_cons.1 h with rfl | h
        · simp
        · simp [h]
      · rcases List.mem_cons.1 h with rfl | h
        · simp
        · rcases ih h with h | h
          · simp [h]
          · simp [h]

theorem trising_tput (k : Nat) (v : α) (t : Tbl α) (h : trising t = true) : trising (tput k v t) = true := by
  induction t with
  | nil => rfl
  | cons e r ih =>
    obtain ⟨j, w⟩ := e
    have hr := (trising_cons j w r).1 h
    simp only [tput]
    split
    · next hk =>
      refine (trising_cons _ _ _).2 ⟨?_, h⟩
      intro x hx
      rcases List.mem_cons.1 hx with rfl | hx
      · exact hk
      · exact Nat.lt_trans hk (hr.1 x hx)
    · split
      · subst_vars; exact (trising_cons _ _ _).2 hr
      · exact (trising_cons _ _ _).2 ⟨tabove_tput j k v r (by omega) hr.1, ih hr.2⟩

theorem trising_tdel (k : Nat) (t : Tbl α) (h : trising t = true) : trising (tdel k t) = true := by
  induction t with
  | nil => rfl
  | cons e r ih =>
    obtain ⟨j, w⟩ := e
    have hr := (trising_cons j w r).1 h
    simp only [tdel]
    split
    · exact hr.2
    · exact (trising_cons _ _ _).2 ⟨fun x hx => hr.1 x (mem_tdel k r x hx), ih hr.2⟩

/-- A write keeps the canonical form. -/
theorem twf_tset [DecidableEq α] (d : Nat → α) (t : Tbl α) (k : Nat) (v : α) (h : twf d t = true) : twf d (tset d t k v) = true := by
  rw [twf_iff] at h ⊢
  unfold tset
  split
  · exact ⟨trising_tdel k t h.1, fun e he => h.2 e (mem_tdel k t e he)⟩
  · next hv =>
    refine ⟨trising_tput k v t h.1, fun e he => ?_⟩
    rcases mem_tput k v t e he with rfl | he
    · exact hv
    · exact h.2 e he

/-- Normalising brings any table into the canonical form. -/
theorem twf_tnorm [DecidableEq α] (d : Nat → α) (t : Tbl α) : twf d (tnorm d t) = true := by
  induction t with
  | nil => rfl
  | cons e r ih => exact twf_tset d _ e.1 e.2 ih

/-- Normalising changes what no key reads as. -/
theorem tget_tnorm [DecidableEq α] (d : Nat → α) (t : Tbl α) (k : Nat) : tget d (tnorm d t) k = tget d t k := by
  induction t with
  | nil => rfl
  | cons e r ih =>
    obtain ⟨j, v⟩ := e
    have := tget_tset d (tnorm d r) j v k (twf_tnorm d r)
    simp only [tnorm, List.foldr_cons] at this ih ⊢
    rw [this, tget_cons, ih]
    grind

/-- A table in canonical form is its own normal form. -/
theorem tnorm_eq [DecidableEq α] (d : Nat → α) (t : Tbl α) (h : twf d t = true) : tnorm d t = t := by
  rw [twf_iff] at h
  induction t with
  | nil => rfl
  | cons e r ih =>
    obtain ⟨j, v⟩ := e
    have hr := (trising_cons j v r).1 h.1
    have ihr := ih ⟨hr.2, fun e he => h.2 e (by simp [he])⟩
    have hv : v ≠ d j := h.2 (j, v) (by simp)
    simp only [tnorm, List.foldr_cons] at ihr ⊢
    rw [ihr, tset, if_neg hv]
    cases r with
    | nil => rfl
    | cons x r =>
      obtain ⟨m, w⟩ := x
      have : j < m := hr.1 (m, w) (by simp)
      simp [tput, this]

/-- Writing back what a key reads changes nothing. -/
theorem tset_get [DecidableEq α] (d : Nat → α) (t : Tbl α) (k : Nat) (h : twf d t = true) : tset d t k (tget d t k) = t := by
  rw [twf_iff] at h
  induction t with
  | nil => simp [tset, tdel]
  | cons e r ih =>
    obtain ⟨j, v⟩ := e
    have hr := (trising_cons j v r).1 h.1
    have hv : v ≠ d j := h.2 (j, v) (by simp)
    have ihr := ih ⟨hr.2, fun e he => h.2 e (by simp [he])⟩
    rw [tget_cons]
    by_cases hj : j = k
    · subst hj
      simp [tset, hv, tput]
    · simp only [if_neg hj]
      unfold tset at ihr ⊢
      by_cases hk : tget d r k = d k
      · rw [if_pos hk] at ihr ⊢
        simp [tdel, hj, ihr]
      · rw [if_neg hk] at ihr ⊢
        have hlt : j < k := by
          rcases Nat.lt_or_ge j k with h | h
          · exact h
          · exact absurd (tget_above d r k (fun x hx => by have := hr.1 x hx; omega)) hk
        simp only [tput]
        rw [if_neg (by omega), if_neg (by omega), ihr]

end Sys2Proof.Machine
end

