-- ==== Sys2Proof/Laws/Norm.lean ====
section
/-! SUPPORT. What bringing the tables into canonical form leaves as it was: every read of every table; a state whose tables
are in canonical form altogether. Every named update keeps the form. -/
namespace Sys2Proof.Machine

variable (s : State)

@[simp] theorem State.norm_link (l : Nat) : s.norm.link l = s.link l := tget_tnorm _ _ _
@[simp] theorem State.norm_port (p : Nat) : s.norm.port p = s.port p := tget_tnorm _ _ _
@[simp] theorem State.norm_queue (q : Nat) : s.norm.queue q = s.queue q := tget_tnorm _ _ _
@[simp] theorem State.norm_slot (k : Nat) : s.norm.slot k = s.slot k := tget_tnorm _ _ _
@[simp] theorem State.norm_fent (k : Nat) : s.norm.fent k = s.fent k := tget_tnorm _ _ _
@[simp] theorem State.norm_chain (k : Nat) : s.norm.chain k = s.chain k := tget_tnorm _ _ _
@[simp] theorem State.norm_way (k : Nat) : s.norm.way k = s.way k := tget_tnorm _ _ _
@[simp] theorem State.norm_die (k : Nat) : s.norm.die k = s.die k := tget_tnorm _ _ _
@[simp] theorem State.norm_pslot (k : Nat) : s.norm.pslot k = s.pslot k := tget_tnorm _ _ _
@[simp] theorem State.norm_chan (k : Nat) : s.norm.chan k = s.chan k := tget_tnorm _ _ _
@[simp] theorem State.norm_dch (k : Nat) : s.norm.dch k = s.dch k := tget_tnorm _ _ _
@[simp] theorem State.norm_cnt (k : Nat) : s.norm.cnt k = s.cnt k := tget_tnorm _ _ _
@[simp] theorem State.norm_arb (k : Nat) : s.norm.arb k = s.arb k := tget_tnorm _ _ _
@[simp] theorem State.norm_reg3 (o : Nat) : s.norm.reg3 o = s.reg3 o := tget_tnorm _ _ _
@[simp] theorem State.norm_reg (o : Nat) : s.norm.reg o = s.reg o := by simp [State.reg]
@[simp] theorem State.norm_txHalf : s.norm.txHalf = [] := rfl
@[simp] theorem State.norm_fld (o lo w : Nat) : s.norm.fld o lo w = s.fld o lo w := by simp [State.fld]
@[simp] theorem State.norm_bit (o n : Nat) : s.norm.bit o n = s.bit o n := by simp [State.bit]

/-- Every meaning leaves its tables in canonical form. -/
theorem State.norm_wf : s.norm.tablesWf = true := by
  simp [State.tablesWf, State.norm, twf_tnorm]

/-- A state whose tables are in canonical form is its own normal form. -/
theorem State.norm_eq (h : s.tablesWf = true) : s.norm = s := by
  simp only [State.tablesWf, Bool.and_eq_true, List.isEmpty_iff] at h
  have e : ({ s with txHalf := [] } : State) = s := by rw [← h.2]
  conv => rhs; rw [← e]
  simp [State.norm, tnorm_eq, h]

/-- The outcome of a meaning whose state is in canonical form. -/
theorem State.done_eq (h : s.tablesWf = true) : s.done = .next s := by rw [State.done, State.norm_eq s h]

/-- The outcome of a meaning is always a next state in canonical form. -/
theorem State.done_next : s.done = .next s.norm := rfl

end Sys2Proof.Machine
end

