-- ==== Sys2Proof/Laws/PerInstr.lean ====
section
/-! SUPPORT. A law of every command as syntax, by constructor: a well-formed command carries at most nine 16-byte data slots
(R53, R57: 128 bytes that begin inside a chunk touch nine chunks), so that its message takes at most ten slots. -/
namespace Sys2Proof.Laws.DataSlots
open Sys2Proof

/-- The data slots of the message that the command brings. -/
def count : Instr → Nat
  | .wbFull _ _ slots => slots.length
  | .wrFull _ _ slots => slots.length
  | .wrPtl _ _ slots => slots.length
  | .atomic _ _ slots => slots.length
  | .wrCond _ _ slots => slots.length
  | .data _ _ slots => slots.length
  | .snpData _ _ slots => slots.length
  | _ => 0

def Statement (i : Instr) : Prop := i.wf = true → count i ≤ 9

theorem chunks_le (h : Req) : wfChunks h.addr.toNat (h.sizeM1.toNat + 1) ≤ 9 := by
  have := h.sizeM1.isLt
  unfold wfChunks
  omega

theorem porstNAssert : Statement .porstNAssert := fun _ => Nat.zero_le 9
theorem porstNRelease (straps : Straps) (train : Train) : Statement (.porstNRelease straps train) := fun _ => Nat.zero_le 9
theorem keyWaitTimeout : Statement .keyWaitTimeout := fun _ => Nat.zero_le 9
theorem warmNFall : Statement .warmNFall := fun _ => Nat.zero_le 9
theorem warmDrainEnd (train : Train) : Statement (.warmDrainEnd train) := fun _ => Nat.zero_le 9
theorem vmainSenseFall (errs : List (Nat × FrameErr)) : Statement (.vmainSenseFall errs) := fun _ => Nat.zero_le 9
theorem vbakLow : Statement .vbakLow := fun _ => Nat.zero_le 9
theorem vmainSenseRise (train : Train) : Statement (.vmainSenseRise train) := fun _ => Nat.zero_le 9
theorem refclkMissing : Statement .refclkMissing := fun _ => Nat.zero_le 9
theorem overTemperatureStop : Statement .overTemperatureStop := fun _ => Nat.zero_le 9
theorem tickBoundary (t : TickIn) : Statement (.tickBoundary t) := fun _ => Nat.zero_le 9
theorem scheduledWorkDone : Statement .scheduledWorkDone := fun _ => Nat.zero_le 9
theorem tickOverrun : Statement .tickOverrun := fun _ => Nat.zero_le 9
theorem wearPersist : Statement .wearPersist := fun _ => Nat.zero_le 9
theorem shoulderDrainDone : Statement .shoulderDrainDone := fun _ => Nat.zero_le 9
theorem guardEngage : Statement .guardEngage := fun _ => Nat.zero_le 9
theorem idleEntry : Statement .idleEntry := fun _ => Nat.zero_le 9
theorem idleExit : Statement .idleExit := fun _ => Nat.zero_le 9
theorem standbyWake (w : Wake) : Statement (.standbyWake w) := fun _ => Nat.zero_le 9
theorem standbyReplyWaitEnd : Statement .standbyReplyWaitEnd := fun _ => Nat.zero_le 9
theorem linkDetectPoll (l : Fin 16) (lanes : BitVec 8) : Statement (.linkDetectPoll l lanes) := fun _ => Nat.zero_le 9
theorem absentTimeout (l : Fin 16) : Statement (.absentTimeout l) := fun _ => Nat.zero_le 9
theorem syncComplete (l : Fin 16) (laneOk : BitVec 8) : Statement (.syncComplete l laneOk) := fun _ => Nat.zero_le 9
theorem syncTimeout (l : Fin 16) : Statement (.syncTimeout l) := fun _ => Nat.zero_le 9
theorem paramTimeout (l : Fin 16) : Statement (.paramTimeout l) := fun _ => Nat.zero_le 9
theorem eqTimeout (l : Fin 16) : Statement (.eqTimeout l) := fun _ => Nat.zero_le 9
theorem retrainTimeout (l : Fin 16) : Statement (.retrainTimeout l) := fun _ => Nat.zero_le 9
theorem tsSync (l : Fin 16) : Statement (.tsSync l) := fun _ => Nat.zero_le 9
theorem tsParam (l : Fin 16) (p : TsParam) : Statement (.tsParam l p) := fun _ => Nat.zero_le 9
theorem tsEq (l : Fin 16) : Statement (.tsEq l) := fun _ => Nat.zero_le 9
theorem tsDone (l : Fin 16) : Statement (.tsDone l) := fun _ => Nat.zero_le 9
theorem blockLockLoss (l : Fin 16) : Statement (.blockLockLoss l) := fun _ => Nat.zero_le 9
theorem msgFlit (l : Fin 16) (f : Flit) : Statement (.msgFlit l f) := fun _ => Nat.zero_le 9
theorem idleFlit (l : Fin 16) (f : Flit) : Statement (.idleFlit l f) := fun _ => Nat.zero_le 9
theorem toll (l : Fin 16) (f : Flit) : Statement (.toll l f) := fun _ => Nat.zero_le 9
theorem nak (l : Fin 16) (f : Flit) : Statement (.nak l f) := fun _ => Nat.zero_le 9
theorem pwrReq (l : Fin 16) (f : Flit) : Statement (.pwrReq l f) := fun _ => Nat.zero_le 9
theorem pwrAck (l : Fin 16) (f : Flit) : Statement (.pwrAck l f) := fun _ => Nat.zero_le 9
theorem pwrNak (l : Fin 16) (f : Flit) : Statement (.pwrNak l f) := fun _ => Nat.zero_le 9
theorem nakRepeatTimeout (l : Fin 16) : Statement (.nakRepeatTimeout l) := fun _ => Nat.zero_le 9
theorem replayTimeout (l : Fin 16) : Statement (.replayTimeout l) := fun _ => Nat.zero_le 9
theorem tollReturnTimeout (l : Fin 16) : Statement (.tollReturnTimeout l) := fun _ => Nat.zero_le 9
theorem lightIdleTimeout (l : Fin 16) : Statement (.lightIdleTimeout l) := fun _ => Nat.zero_le 9
theorem deepIdleTimeout (l : Fin 16) : Statement (.deepIdleTimeout l) := fun _ => Nat.zero_le 9
theorem linkWakeReceived (l : Fin 16) : Statement (.linkWakeReceived l) := fun _ => Nat.zero_le 9
theorem linkWakeDone (l : Fin 16) : Statement (.linkWakeDone l) := fun _ => Nat.zero_le 9
theorem ringInsertReserve (stop : Fin 24) : Statement (.ringInsertReserve stop) := fun _ => Nat.zero_le 9
theorem presenceAssert (l : Fin 16) : Statement (.presenceAssert l) := fun _ => Nat.zero_le 9
theorem presenceDeassert (l : Fin 16) : Statement (.presenceDeassert l) := fun _ => Nat.zero_le 9
theorem surpriseDetach (l : Fin 16) : Statement (.surpriseDetach l) := fun _ => Nat.zero_le 9
theorem detachReq (l : Fin 16) : Statement (.detachReq l) := fun _ => Nat.zero_le 9
theorem detachComplete (l : Fin 16) : Statement (.detachComplete l) := fun _ => Nat.zero_le 9
theorem rdShared (l : Fin 16) (h : Req) : Statement (.rdShared l h) := fun _ => Nat.zero_le 9
theorem rdUnique (l : Fin 16) (h : Req) : Statement (.rdUnique l h) := fun _ => Nat.zero_le 9
theorem rdOnce (l : Fin 16) (h : Req) : Statement (.rdOnce l h) := fun _ => Nat.zero_le 9
theorem upgrade (l : Fin 16) (h : Req) : Statement (.upgrade l h) := fun _ => Nat.zero_le 9
theorem wbFull (l : Fin 16) (h : Req) (slots : List MsgSlot) : Statement (.wbFull l h slots) := by
  intro h; simp [Instr.wf, wfSlots] at h; simp [count, h]
theorem evictClean (l : Fin 16) (h : Req) : Statement (.evictClean l h) := fun _ => Nat.zero_le 9
theorem wrFull (l : Fin 16) (h : Req) (slots : List MsgSlot) : Statement (.wrFull l h slots) := by
  intro h; simp [Instr.wf, wfSlots] at h; simp [count, h]
theorem wrPtl (l : Fin 16) (h : Req) (slots : List MsgSlot) : Statement (.wrPtl l h slots) := by
  intro hw; simp [Instr.wf, wfPartial, wfSlots] at hw; simpa [count, hw] using chunks_le h
theorem atomic (l : Fin 16) (h : Req) (slots : List MsgSlot) : Statement (.atomic l h slots) := by
  intro hw; simp only [Instr.wf, wfSlots, beq_iff_eq] at hw; simp only [count, hw]; split <;> decide
theorem rdRsv (l : Fin 16) (h : Req) : Statement (.rdRsv l h) := fun _ => Nat.zero_le 9
theorem wrCond (l : Fin 16) (h : Req) (slots : List MsgSlot) : Statement (.wrCond l h slots) := by
  intro hw; simp [Instr.wf, wfPartial, wfSlots] at hw; simpa [count, hw] using chunks_le h
theorem fence (l : Fin 16) (h : Req) : Statement (.fence l h) := fun _ => Nat.zero_le 9
theorem enqueueRetry (l : Fin 16) : Statement (.enqueueRetry l) := fun _ => Nat.zero_le 9
theorem cmp (l : Fin 16) (r : Rsp) : Statement (.cmp l r) := fun _ => Nat.zero_le 9
theorem data (l : Fin 16) (r : Rsp) (slots : List MsgSlot) : Statement (.data l r slots) := by
  intro hw; simp [Instr.wf, wfData] at hw; exact Nat.le_trans hw (by decide)
theorem snpAck (l : Fin 16) (r : Rsp) : Statement (.snpAck l r) := fun _ => Nat.zero_le 9
theorem snpData (l : Fin 16) (r : Rsp) (slots : List MsgSlot) : Statement (.snpData l r slots) := by
  intro hw; simp [Instr.wf, wfData] at hw; exact Nat.le_trans hw (by decide)
theorem queueDispatch (port : Fin 1024) (tc : Fin 8) : Statement (.queueDispatch port tc) := fun _ => Nat.zero_le 9
theorem laybyIssue (port : Fin 1024) : Statement (.laybyIssue port) := fun _ => Nat.zero_le 9
theorem waitChainAdvance (line : BitVec 30) : Statement (.waitChainAdvance line) := fun _ => Nat.zero_le 9
theorem filterRetry (slice : Fin 8) (set : Fin 256) : Statement (.filterRetry slice set) := fun _ => Nat.zero_le 9
theorem snoopTimeout (slot : Fin 4096) (l : Fin 16) : Statement (.snoopTimeout slot l) := fun _ => Nat.zero_le 9
theorem deadRegionRecovery (slice : Fin 8) : Statement (.deadRegionRecovery slice) := fun _ => Nat.zero_le 9
theorem frameReadDone (slot : Fin 4096) (e : FrameErr) : Statement (.frameReadDone slot e) := fun _ => Nat.zero_le 9
theorem frameWriteDone (slot : Fin 4096) : Statement (.frameWriteDone slot) := fun _ => Nat.zero_le 9
theorem missTokenTake (port : Fin 1024) : Statement (.missTokenTake port) := fun _ => Nat.zero_le 9
theorem dramReadReturn (slot : Fin 4096) (d : DramIn) : Statement (.dramReadReturn slot d) := fun _ => Nat.zero_le 9
theorem dramWriteAck (slot : Fin 4096) : Statement (.dramWriteAck slot) := fun _ => Nat.zero_le 9
theorem answerSend (port : Fin 1024) (tc : Fin 8) : Statement (.answerSend port tc) := fun _ => Nat.zero_le 9
theorem fenceComplete (port : Fin 1024) : Statement (.fenceComplete port) := fun _ => Nat.zero_le 9
theorem targetTimeout (l : Fin 16) (tag : BitVec 12) : Statement (.targetTimeout l tag) := fun _ => Nat.zero_le 9
theorem prefetchIssue (port : Fin 1024) : Statement (.prefetchIssue port) := fun _ => Nat.zero_le 9
theorem prefetchExpire (port : Fin 1024) : Statement (.prefetchExpire port) := fun _ => Nat.zero_le 9
theorem ageSweepStart (errs : List Nat) : Statement (.ageSweepStart errs) := fun _ => Nat.zero_le 9
theorem waypointWriteback (parityErr : Bool) : Statement (.waypointWriteback parityErr) := fun _ => Nat.zero_le 9
theorem correctionRewrite (e : FrameErr) (verify : FrameErr) : Statement (.correctionRewrite e verify) := fun _ => Nat.zero_le 9
theorem laneShiftMove (die : Fin 8) (seg : Fin 512) (e : FrameErr) : Statement (.laneShiftMove die seg e) := fun _ => Nat.zero_le 9
theorem retirementCopy (die : Fin 8) (e : FrameErr) : Statement (.retirementCopy die e) := fun _ => Nat.zero_le 9
theorem resurfacingVisit (die : Fin 8) (e : FrameErr) : Statement (.resurfacingVisit die e) := fun _ => Nat.zero_le 9
theorem refreshDue (ch : Fin 16) (bank : Fin 32) (use : BankUse) : Statement (.refreshDue ch bank use) := fun _ => Nat.zero_le 9
theorem rfmDue (ch : Fin 16) (bank : Fin 32) (busy : Bool) : Statement (.rfmDue ch bank busy) := fun _ => Nat.zero_le 9
theorem writeAgeSwitch (ch : Fin 16) : Statement (.writeAgeSwitch ch) := fun _ => Nat.zero_le 9
theorem rowIdleClose (ch : Fin 16) (bank : Fin 32) : Statement (.rowIdleClose ch bank) := fun _ => Nat.zero_le 9
theorem powerDownEntry (ch : Fin 16) : Statement (.powerDownEntry ch) := fun _ => Nat.zero_le 9
theorem selfRefreshEntry (ch : Fin 16) : Statement (.selfRefreshEntry ch) := fun _ => Nat.zero_le 9
theorem channelRetrain (ch : Fin 16) : Statement (.channelRetrain ch) := fun _ => Nat.zero_le 9
theorem channelRetrainDone (ch : Fin 16) : Statement (.channelRetrainDone ch) := fun _ => Nat.zero_le 9
theorem paveDone (granule : BitVec 21) : Statement (.paveDone granule) := fun _ => Nat.zero_le 9
theorem parkLineMove (slot : Fin 1024) (line : Fin 16384) (e : FrameErr) (d : DramIn) : Statement (.parkLineMove slot line e d) := fun _ => Nat.zero_le 9
theorem unparkLineMove (slot : Fin 1024) (line : Fin 16384) (e : FrameErr) : Statement (.unparkLineMove slot line e) := fun _ => Nat.zero_le 9
theorem resizeDone : Statement .resizeDone := fun _ => Nat.zero_le 9
theorem dmaDescriptorFetch (ch : Fin 64) : Statement (.dmaDescriptorFetch ch) := fun _ => Nat.zero_le 9
theorem nop (ch : Fin 64) : Statement (.nop ch) := fun _ => Nat.zero_le 9
theorem link (ch : Fin 64) : Statement (.link ch) := fun _ => Nat.zero_le 9
theorem copy (ch : Fin 64) : Statement (.copy ch) := fun _ => Nat.zero_le 9
theorem fill (ch : Fin 64) : Statement (.fill ch) := fun _ => Nat.zero_le 9
theorem pave (ch : Fin 64) : Statement (.pave ch) := fun _ => Nat.zero_le 9
theorem park (ch : Fin 64) : Statement (.park ch) := fun _ => Nat.zero_le 9
theorem unpark (ch : Fin 64) : Statement (.unpark ch) := fun _ => Nat.zero_le 9
theorem clean (ch : Fin 64) : Statement (.clean ch) := fun _ => Nat.zero_le 9
theorem inval (ch : Fin 64) : Statement (.inval ch) := fun _ => Nat.zero_le 9
theorem cleanInval (ch : Fin 64) : Statement (.cleanInval ch) := fun _ => Nat.zero_le 9
theorem dmaReadbackDone (ch : Fin 64) : Statement (.dmaReadbackDone ch) := fun _ => Nat.zero_le 9
theorem dmaRangeDone (ch : Fin 64) : Statement (.dmaRangeDone ch) := fun _ => Nat.zero_le 9
theorem dmaStopComplete (ch : Fin 64) : Statement (.dmaStopComplete ch) := fun _ => Nat.zero_le 9
theorem dmaEnable (ch : Fin 64) (v : Word) : Statement (.dmaEnable ch v) := fun _ => Nat.zero_le 9
theorem dmaDisable (ch : Fin 64) (v : Word) : Statement (.dmaDisable ch v) := fun _ => Nat.zero_le 9
theorem dmaShadowArm (ch : Fin 64) (v : Word) : Statement (.dmaShadowArm ch v) := fun _ => Nat.zero_le 9
theorem quarRelease (l : Fin 16) (v : Word) : Statement (.quarRelease l v) := fun _ => Nat.zero_le 9
theorem retrain (l : Fin 16) (v : Word) : Statement (.retrain l v) := fun _ => Nat.zero_le 9
theorem linkEnable (l : Fin 16) (v : Word) : Statement (.linkEnable l v) := fun _ => Nat.zero_le 9
theorem linkDisable (l : Fin 16) (v : Word) : Statement (.linkDisable l v) := fun _ => Nat.zero_le 9
theorem maintClean (v : Word) : Statement (.maintClean v) := fun _ => Nat.zero_le 9
theorem maintInvalidate (v : Word) : Statement (.maintInvalidate v) := fun _ => Nat.zero_le 9
theorem maintCleanInvalidate (v : Word) : Statement (.maintCleanInvalidate v) := fun _ => Nat.zero_le 9
theorem lockFill (v : Word) : Statement (.lockFill v) := fun _ => Nat.zero_le 9
theorem unlockByAddress (v : Word) : Statement (.unlockByAddress v) := fun _ => Nat.zero_le 9
theorem wayWriteBack (v : Word) : Statement (.wayWriteBack v) := fun _ => Nat.zero_le 9
theorem wayEvict (v : Word) : Statement (.wayEvict v) := fun _ => Nat.zero_le 9
theorem wayUnlock (v : Word) : Statement (.wayUnlock v) := fun _ => Nat.zero_le 9
theorem splitWrite (v : Word) : Statement (.splitWrite v) := fun _ => Nat.zero_le 9
theorem testRead (v : Word) (e : FrameErr) : Statement (.testRead v e) := fun _ => Nat.zero_le 9
theorem parkSizeWrite (v : Word) : Statement (.parkSizeWrite v) := fun _ => Nat.zero_le 9
theorem vacancyDeclare (v : Word) : Statement (.vacancyDeclare v) := fun _ => Nat.zero_le 9
theorem vacancyWithdraw (v : Word) : Statement (.vacancyWithdraw v) := fun _ => Nat.zero_le 9
theorem slotRelease (v : Word) : Statement (.slotRelease v) := fun _ => Nat.zero_le 9
theorem rsvGranuleWrite (v : Word) : Statement (.rsvGranuleWrite v) := fun _ => Nat.zero_le 9
theorem windowWrite (off : BitVec 23) (v : Word) : Statement (.windowWrite off v) := fun _ => Nat.zero_le 9
theorem ksEnWrite (v : Word) : Statement (.ksEnWrite v) := fun _ => Nat.zero_le 9
theorem cntValLoWrite (n : Fin 64) (v : Word) : Statement (.cntValLoWrite n v) := fun _ => Nat.zero_le 9
theorem cntValHiWrite (n : Fin 64) (v : Word) : Statement (.cntValHiWrite n v) := fun _ => Nat.zero_le 9
theorem cmdFifoWrite (v : Word) : Statement (.cmdFifoWrite v) := fun _ => Nat.zero_le 9
theorem flush (v : Word) : Statement (.flush v) := fun _ => Nat.zero_le 9
theorem replyFifoRead : Statement .replyFifoRead := fun _ => Nat.zero_le 9
theorem evtLoRead : Statement .evtLoRead := fun _ => Nat.zero_le 9
theorem registerWrite (off : BitVec 23) (v : Word) : Statement (.registerWrite off v) := fun _ => Nat.zero_le 9
theorem pendingReply (p : Path) : Statement (.pendingReply p) := fun _ => Nat.zero_le 9
theorem sessionIdleClose (p : Path) : Statement (.sessionIdleClose p) := fun _ => Nat.zero_le 9
theorem tollgateLockoutEnd (p : Path) : Statement (.tollgateLockoutEnd p) := fun _ => Nat.zero_le 9
theorem identify (p : Path) : Statement (.identify p) := fun _ => Nat.zero_le 9
theorem getVersions (p : Path) : Statement (.getVersions p) := fun _ => Nat.zero_le 9
theorem getStatus (p : Path) : Statement (.getStatus p) := fun _ => Nat.zero_le 9
theorem echo (p : Path) : Statement (.echo p) := fun _ => Nat.zero_le 9
theorem tollgateOpen (p : Path) : Statement (.tollgateOpen p) := fun _ => Nat.zero_le 9
theorem tollgateAuth (p : Path) : Statement (.tollgateAuth p) := fun _ => Nat.zero_le 9
theorem tollgateClose (p : Path) : Statement (.tollgateClose p) := fun _ => Nat.zero_le 9
theorem tollgateProvision (p : Path) : Statement (.tollgateProvision p) := fun _ => Nat.zero_le 9
theorem sessionStatus (p : Path) : Statement (.sessionStatus p) := fun _ => Nat.zero_le 9
theorem telemRead (p : Path) : Statement (.telemRead p) := fun _ => Nat.zero_le 9
theorem logRead (p : Path) : Statement (.logRead p) := fun _ => Nat.zero_le 9
theorem logClear (p : Path) : Statement (.logClear p) := fun _ => Nat.zero_le 9
theorem fwUpdateBegin (p : Path) : Statement (.fwUpdateBegin p) := fun _ => Nat.zero_le 9
theorem fwUpdateData (p : Path) : Statement (.fwUpdateData p) := fun _ => Nat.zero_le 9
theorem fwUpdateCommit (p : Path) : Statement (.fwUpdateCommit p) := fun _ => Nat.zero_le 9
theorem fwSlotSelect (p : Path) : Statement (.fwSlotSelect p) := fun _ => Nat.zero_le 9
theorem keyLoad (p : Path) : Statement (.keyLoad p) := fun _ => Nat.zero_le 9
theorem keyUnload (p : Path) : Statement (.keyUnload p) := fun _ => Nat.zero_le 9
theorem keyReady (p : Path) : Statement (.keyReady p) := fun _ => Nat.zero_le 9
theorem calFactoryRead (p : Path) : Statement (.calFactoryRead p) := fun _ => Nat.zero_le 9
theorem calTrimRead (p : Path) : Statement (.calTrimRead p) := fun _ => Nat.zero_le 9
theorem calTrimWrite (p : Path) : Statement (.calTrimWrite p) := fun _ => Nat.zero_le 9
theorem softReset (p : Path) : Statement (.softReset p) := fun _ => Nat.zero_le 9
theorem shutdown (p : Path) : Statement (.shutdown p) := fun _ => Nat.zero_le 9
theorem standbyEnter (p : Path) : Statement (.standbyEnter p) := fun _ => Nat.zero_le 9
theorem governorSet (p : Path) : Statement (.governorSet p) := fun _ => Nat.zero_le 9
theorem governorGet (p : Path) : Statement (.governorGet p) := fun _ => Nat.zero_le 9
theorem wearRead (p : Path) : Statement (.wearRead p) := fun _ => Nat.zero_le 9
theorem parkMapRead (p : Path) : Statement (.parkMapRead p) := fun _ => Nat.zero_le 9
theorem selftestStatus (p : Path) : Statement (.selftestStatus p) := fun _ => Nat.zero_le 9
theorem eventDrain (p : Path) : Statement (.eventDrain p) := fun _ => Nat.zero_le 9
theorem i3cPrivateWrite (bytes : List (BitVec 8)) : Statement (.i3cPrivateWrite bytes) := fun _ => Nat.zero_le 9
theorem i3cPrivateRead : Statement .i3cPrivateRead := fun _ => Nat.zero_le 9
theorem i3cHdrEntry : Statement .i3cHdrEntry := fun _ => Nat.zero_le 9
theorem enec (events : BitVec 8) : Statement (.enec events) := fun _ => Nat.zero_le 9
theorem disec (events : BitVec 8) : Statement (.disec events) := fun _ => Nat.zero_le 9
theorem rstdaa : Statement .rstdaa := fun _ => Nat.zero_le 9
theorem entdaa (addr : BitVec 7) : Statement (.entdaa addr) := fun _ => Nat.zero_le 9
theorem setdasa (stat : BitVec 7) (addr : BitVec 7) : Statement (.setdasa stat addr) := fun _ => Nat.zero_le 9
theorem setnewda (addr : BitVec 7) : Statement (.setnewda addr) := fun _ => Nat.zero_le 9
theorem getpid : Statement .getpid := fun _ => Nat.zero_le 9
theorem getbcr : Statement .getbcr := fun _ => Nat.zero_le 9
theorem getdcr : Statement .getdcr := fun _ => Nat.zero_le 9
theorem getstatus : Statement .getstatus := fun _ => Nat.zero_le 9
theorem getmwl : Statement .getmwl := fun _ => Nat.zero_le 9
theorem getmrl : Statement .getmrl := fun _ => Nat.zero_le 9
theorem unsupportedCcc (direct : Bool) : Statement (.unsupportedCcc direct) := fun _ => Nat.zero_le 9
theorem vaonFall : Statement .vaonFall := fun _ => Nat.zero_le 9
theorem vbakRise : Statement .vbakRise := fun _ => Nat.zero_le 9
theorem i3cHdrExit : Statement .i3cHdrExit := fun _ => Nat.zero_le 9
theorem storeSensePowerDown (die : Fin 8) : Statement (.storeSensePowerDown die) := fun _ => Nat.zero_le 9
theorem signpostReservedOpcode (p : Path) : Statement (.signpostReservedOpcode p) := fun _ => Nat.zero_le 9

end Sys2Proof.Laws.DataSlots
end

