-- ==== Sys2Proof/Laws/Update.lean ====
section
/-! SUPPORT. Read after write for each table of the state, and each named update keeps the tables in canonical form. -/
namespace Sys2Proof.Machine

variable (s : State)

/-- Read after write: link. -/
theorem State.link_setLink (h : s.tablesWf = true) (k j : Nat) (v : Link) :
    (s.setLink k v).link j = if j = k then v else s.link j := by
  simp only [State.tablesWf, Bool.and_eq_true] at h
  simp [State.link, State.setLink, tget_tset, h]

/-- Read after write: port. -/
theorem State.port_setPort (h : s.tablesWf = true) (k j : Nat) (v : Port) :
    (s.setPort k v).port j = if j = k then v else s.port j := by
  simp only [State.tablesWf, Bool.and_eq_true] at h
  simp [State.port, State.setPort, tget_tset, h]

/-- Read after write: queue. -/
theorem State.queue_setQueue (h : s.tablesWf = true) (k j : Nat) (v : Queue) :
    (s.setQueue k v).queue j = if j = k then v else s.queue j := by
  simp only [State.tablesWf, Bool.and_eq_true] at h
  simp [State.queue, State.setQueue, tget_tset, h]

/-- Read after write: slot. -/
theorem State.slot_setSlot (h : s.tablesWf = true) (k j : Nat) (v : Option Slot) :
    (s.setSlot k v).slot j = if j = k then v else s.slot j := by
  simp only [State.tablesWf, Bool.and_eq_true] at h
  simp [State.slot, State.setSlot, tget_tset, h]

/-- Read after write: fent. -/
theorem State.fent_setFent (h : s.tablesWf = true) (k j : Nat) (v : Option FEnt) :
    (s.setFent k v).fent j = if j = k then v else s.fent j := by
  simp only [State.tablesWf, Bool.and_eq_true] at h
  simp [State.fent, State.setFent, tget_tset, h]

/-- Read after write: chain. -/
theorem State.chain_setChain (h : s.tablesWf = true) (k j : Nat) (v : List Nat) :
    (s.setChain k v).chain j = if j = k then v else s.chain j := by
  simp only [State.tablesWf, Bool.and_eq_true] at h
  simp [State.chain, State.setChain, tget_tset, h]

/-- Read after write: way. -/
theorem State.way_setWay (h : s.tablesWf = true) (k j : Nat) (v : Way) :
    (s.setWay k v).way j = if j = k then v else s.way j := by
  simp only [State.tablesWf, Bool.and_eq_true] at h
  simp [State.way, State.setWay, tget_tset, h]

/-- Read after write: die. -/
theorem State.die_setDie (h : s.tablesWf = true) (k j : Nat) (v : Die) :
    (s.setDie k v).die j = if j = k then v else s.die j := by
  simp only [State.tablesWf, Bool.and_eq_true] at h
  simp [State.die, State.setDie, tget_tset, h]

/-- Read after write: pslot. -/
theorem State.pslot_setPslot (h : s.tablesWf = true) (k j : Nat) (v : PSlot) :
    (s.setPslot k v).pslot j = if j = k then v else s.pslot j := by
  simp only [State.tablesWf, Bool.and_eq_true] at h
  simp [State.pslot, State.setPslot, tget_tset, h]

/-- Read after write: chan. -/
theorem State.chan_setChan (h : s.tablesWf = true) (k j : Nat) (v : Chan) :
    (s.setChan k v).chan j = if j = k then v else s.chan j := by
  simp only [State.tablesWf, Bool.and_eq_true] at h
  simp [State.chan, State.setChan, tget_tset, h]

/-- Read after write: dch. -/
theorem State.dch_setDch (h : s.tablesWf = true) (k j : Nat) (v : DmaCh) :
    (s.setDch k v).dch j = if j = k then v else s.dch j := by
  simp only [State.tablesWf, Bool.and_eq_true] at h
  simp [State.dch, State.setDch, tget_tset, h]

/-- Read after write: cnt. -/
theorem State.cnt_setCnt (h : s.tablesWf = true) (k j : Nat) (v : Cnt) :
    (s.setCnt k v).cnt j = if j = k then v else s.cnt j := by
  simp only [State.tablesWf, Bool.and_eq_true] at h
  simp [State.cnt, State.setCnt, tget_tset, h]

/-- Read after write: arb. -/
theorem State.arb_setArb (h : s.tablesWf = true) (k j : Nat) (v : Nat) :
    (s.setArb k v).arb j = if j = k then v else s.arb j := by
  simp only [State.tablesWf, Bool.and_eq_true] at h
  simp [State.arb, State.setArb, tget_tset, h]

/-- Read after write: reg3. -/
theorem State.reg3_setReg3 (h : s.tablesWf = true) (k j : Nat) (v : Reg3) :
    (s.setReg3 k v).reg3 j = if j = k then v else s.reg3 j := by
  simp only [State.tablesWf, Bool.and_eq_true] at h
  simp [State.reg3, State.setReg3, tget_tset, h]

theorem State.wf_setLink (h : s.tablesWf = true) (k : Nat) (v : Link) : (s.setLink k v).tablesWf = true := by
  simp only [State.tablesWf, Bool.and_eq_true] at h
  simp [State.tablesWf, State.setLink, twf_tset, h]

theorem State.wf_setPort (h : s.tablesWf = true) (k : Nat) (v : Port) : (s.setPort k v).tablesWf = true := by
  simp only [State.tablesWf, Bool.and_eq_true] at h
  simp [State.tablesWf, State.setPort, twf_tset, h]

theorem State.wf_setQueue (h : s.tablesWf = true) (k : Nat) (v : Queue) : (s.setQueue k v).tablesWf = true := by
  simp only [State.tablesWf, Bool.and_eq_true] at h
  simp [State.tablesWf, State.setQueue, twf_tset, h]

theorem State.wf_setSlot (h : s.tablesWf = true) (k : Nat) (v : Option Slot) : (s.setSlot k v).tablesWf = true := by
  simp only [State.tablesWf, Bool.and_eq_true] at h
  simp [State.tablesWf, State.setSlot, twf_tset, h]

theorem State.wf_setFent (h : s.tablesWf = true) (k : Nat) (v : Option FEnt) : (s.setFent k v).tablesWf = true := by
  simp only [State.tablesWf, Bool.and_eq_true] at h
  simp [State.tablesWf, State.setFent, twf_tset, h]

theorem State.wf_setChain (h : s.tablesWf = true) (k : Nat) (v : List Nat) : (s.setChain k v).tablesWf = true := by
  simp only [State.tablesWf, Bool.and_eq_true] at h
  simp [State.tablesWf, State.setChain, twf_tset, h]

theorem State.wf_setWay (h : s.tablesWf = true) (k : Nat) (v : Way) : (s.setWay k v).tablesWf = true := by
  simp only [State.tablesWf, Bool.and_eq_true] at h
  simp [State.tablesWf, State.setWay, twf_tset, h]

theorem State.wf_setDie (h : s.tablesWf = true) (k : Nat) (v : Die) : (s.setDie k v).tablesWf = true := by
  simp only [State.tablesWf, Bool.and_eq_true] at h
  simp [State.tablesWf, State.setDie, twf_tset, h]

theorem State.wf_setPslot (h : s.tablesWf = true) (k : Nat) (v : PSlot) : (s.setPslot k v).tablesWf = true := by
  simp only [State.tablesWf, Bool.and_eq_true] at h
  simp [State.tablesWf, State.setPslot, twf_tset, h]

theorem State.wf_setChan (h : s.tablesWf = true) (k : Nat) (v : Chan) : (s.setChan k v).tablesWf = true := by
  simp only [State.tablesWf, Bool.and_eq_true] at h
  simp [State.tablesWf, State.setChan, twf_tset, h]

theorem State.wf_setDch (h : s.tablesWf = true) (k : Nat) (v : DmaCh) : (s.setDch k v).tablesWf = true := by
  simp only [State.tablesWf, Bool.and_eq_true] at h
  simp [State.tablesWf, State.setDch, twf_tset, h]

theorem State.wf_setCnt (h : s.tablesWf = true) (k : Nat) (v : Cnt) : (s.setCnt k v).tablesWf = true := by
  simp only [State.tablesWf, Bool.and_eq_true] at h
  simp [State.tablesWf, State.setCnt, twf_tset, h]

theorem State.wf_setArb (h : s.tablesWf = true) (k : Nat) (v : Nat) : (s.setArb k v).tablesWf = true := by
  simp only [State.tablesWf, Bool.and_eq_true] at h
  simp [State.tablesWf, State.setArb, twf_tset, h]

theorem State.wf_setReg3 (h : s.tablesWf = true) (k : Nat) (v : Reg3) : (s.setReg3 k v).tablesWf = true := by
  simp only [State.tablesWf, Bool.and_eq_true] at h
  simp [State.tablesWf, State.setReg3, twf_tset, h]

theorem State.wf_putReg (h : s.tablesWf = true) (o : Nat) (w : Word) : (s.putReg o w).tablesWf = true :=
  State.wf_setReg3 s h o _

theorem State.wf_writeReg (h : s.tablesWf = true) (o : Nat) (w : Word) : (s.writeReg o w).tablesWf = true :=
  State.wf_setReg3 s h o _

theorem State.wf_setBit (h : s.tablesWf = true) (o n : Nat) : (s.setBit o n).tablesWf = true :=
  State.wf_setReg3 s h o _

theorem State.wf_putBit (h : s.tablesWf = true) (o n : Nat) (b : Bool) : (s.putBit o n b).tablesWf = true := by
  unfold State.putBit
  cases b <;> simp [State.wf_setReg3, State.wf_setBit, h]

theorem State.wf_emit (h : s.tablesWf = true) (o : Out) : (s.emit o).tablesWf = true := h

theorem State.wf_setPower (h : s.tablesWf = true) (v : Power) : (s.setPower v).tablesWf = true := h

theorem State.wf_setSaf (h : s.tablesWf = true) (v : Saf) : (s.setSaf v).tablesWf = true := h

/-- An update of the management state that leaves its two tables keeps the form. -/
theorem State.wf_setMgt (h : s.tablesWf = true) (m : Mgt) (h1 : m.telem = s.mgt.telem) (h2 : m.trim = s.mgt.trim) :
    (s.setMgt m).tablesWf = true := by
  simp only [State.tablesWf, Bool.and_eq_true] at h
  simp [State.tablesWf, State.setMgt, h, h1, h2]

theorem State.reg_putReg (h : s.tablesWf = true) (o p : Nat) (w : Word) :
    (s.putReg o w).reg p = if p = o then votedWord o ⟨w, w, w⟩ else s.reg p := by
  simp only [State.reg, State.putReg, State.reg3_setReg3 s h]
  split <;> simp_all

end Sys2Proof.Machine
end

