-- ==== Sys2Proof/Laws/Reports.lean ====
section
/-! SUPPORT. What reporting can do (R322, R328, R343, R345): each reporting operation keeps everything outside
`State.core`, and keeps the tables in canonical form. One lemma for each operation. -/
namespace Sys2Proof.Machine

/-- What a link holds apart from what sending a message changes. -/
def Link.core (k : Link) : Link :=
  { k with
    txAvail := .zero, txSent := .zero, txSeq := 0, replayBuf := [], txWait := [], waking := false, reqTags := [], wbOpen := [] }

/-- What a state holds apart from what reporting changes: registers, counters, the record of outputs, sends on links,
the half-used flits, ALERT_N, Idle with the dies' sense circuits, the event FIFO, the tallies and the error log with its counts. -/
def State.core (s : State) : State :=
  { s with
    csr := [], out := [], txHalf := [], cnts := [], links := []
    power := { s.power with alertN := true, idle := false }
    sto := { s.sto with dies := [] }
    mgt := { s.mgt with evtFifo := [], demand := 0, wpHits := 0, stHits := 0, pkHits := 0 }
    saf := { s.saf with log := [], lost := 0, cntC := 0, cntP := 0, cntD := 0, cntX := 0, cntAlarm := 0 } }

variable (s : State)

/-! ### The core -/

@[simp] theorem State.core_emit (o : Out) : (s.emit o).core = s.core := rfl
@[simp] theorem State.core_setLink (l : Nat) (v : Link) : (s.setLink l v).core = s.core := rfl
@[simp] theorem State.core_setHalf (l : Nat) (b : Bool) : (s.setHalf l b).core = s.core := rfl
@[simp] theorem State.core_setCnt (n : Nat) (v : Cnt) : (s.setCnt n v).core = s.core := rfl
@[simp] theorem State.core_setReg3 (o : Nat) (v : Reg3) : (s.setReg3 o v).core = s.core := rfl
@[simp] theorem State.core_putReg (o : Nat) (v : Word) : (s.putReg o v).core = s.core := rfl
@[simp] theorem State.core_writeReg (o : Nat) (v : Word) : (s.writeReg o v).core = s.core := rfl
@[simp] theorem State.core_setBit (o n : Nat) : (s.setBit o n).core = s.core := rfl
@[simp] theorem State.core_putBit (o n : Nat) (b : Bool) : (s.putBit o n b).core = s.core := by
  unfold State.putBit; cases b <;> rfl
@[simp] theorem State.core_wake : s.wake.core = s.core := by unfold State.wake; split <;> rfl
@[simp] theorem State.core_driveAlert : s.driveAlert.core = s.core := by
  unfold State.driveAlert; dsimp only; split <;> rfl
@[simp] theorem State.core_wakeLink (l : Nat) : (s.wakeLink l).core = s.core := by
  unfold State.wakeLink; dsimp only; split <;> simp
@[simp] theorem State.core_sendRaw (l : Nat) (m : Msg) : (s.sendRaw l m).2.core = s.core := by
  unfold State.sendRaw; dsimp only; split <;> simp
@[simp] theorem State.core_pushLog (e : LogEnt) : (s.pushLog e).core = s.core := by
  unfold State.pushLog; split
  · rfl
  · split
    · rfl
    · rw [core_setBit]; rfl
theorem State.core_pushEvtBy (rise : State → State) (h : ∀ u : State, (rise u).core = u.core) (e : LogEnt) :
    (s.pushEvtBy rise e).core = s.core := by
  unfold State.pushEvtBy; split
  · dsimp only; split
    · rw [h]; rfl
    · rfl
  · simp
theorem State.core_ovfLogBy (rise : State → State) (h : ∀ u : State, (rise u).core = u.core) (n : Nat) :
    (s.ovfLogBy rise n).core = s.core := by
  unfold State.ovfLogBy; rw [State.core_pushEvtBy _ rise h, core_pushLog]
theorem State.core_bumpBy (note : Nat → State → State) (h : ∀ n (u : State), (note n u).core = u.core) (n k : Nat) :
    (s.bumpBy note n k).core = s.core := by
  unfold State.bumpBy; dsimp only; repeat' split
  all_goals simp [h]
theorem State.core_countFlits (note : Nat → State → State) (h : ∀ n (u : State), (note n u).core = u.core) (l k : Nat) :
    (s.countFlits note l k).core = s.core := by
  have g : ∀ (r : List Nat) (u : State), (r.foldl (fun s n =>
      if s.fld (rCntCfg n) 0 7 == 3 && cntPasses s n { link := some l } then s.bumpBy note n k else s) u).core = u.core := by
    intro r
    induction r with
    | nil => intro u; rfl
    | cons n r ih =>
      intro u; rw [List.foldl_cons, ih]; split
      · exact State.core_bumpBy _ note h _ _
      · rfl
  unfold State.countFlits; split
  · rfl
  · exact g _ _
theorem State.core_sendIntrBy (note : Nat → State → State) (h : ∀ n (u : State), (note n u).core = u.core) (src sub : Nat) :
    (s.sendIntrBy note src sub).core = s.core := by
  unfold State.sendIntrBy; dsimp only; split
  · rw [State.core_countFlits _ note h, core_sendRaw]
  · rfl
theorem State.core_raiseBy (note : Nat → State → State) (h : ∀ n (u : State), (note n u).core = u.core) (src sub : Nat) :
    (s.raiseBy note src sub).core = s.core := by
  unfold State.raiseBy; split
  · rfl
  · dsimp only; rw [core_driveAlert]; split <;> split <;> simp [State.core_sendIntrBy _ note h]
@[simp] theorem State.core_ovfLog (n : Nat) : (State.ovfLog n s).core = s.core :=
  State.core_ovfLogBy s _ (fun u => State.core_raiseBy u _ (fun n v => State.core_ovfLogBy v id (fun _ => rfl) n) 1 0) n
@[simp] theorem State.core_sendIntr (src sub : Nat) : (s.sendIntr src sub).core = s.core :=
  State.core_sendIntrBy s _ (fun _ u => State.core_ovfLog u _) src sub
@[simp] theorem State.core_raise (src sub : Nat) : (s.raise src sub).core = s.core :=
  State.core_raiseBy s _ (fun _ u => State.core_ovfLog u _) src sub
@[simp] theorem State.core_pushEvt (e : LogEnt) : (s.pushEvt e).core = s.core :=
  State.core_pushEvtBy s _ (fun u => State.core_raise u 1 0) e
@[simp] theorem State.core_countCls (c : Cls) : (s.countCls c).core = s.core := by
  cases c <;> simp only [State.countCls, core_raise] <;> rfl
@[simp] theorem State.core_logEvent (b c : Nat) (x : Cls) (p : Option Nat) (a : Nat) (d : BitVec 64) :
    (s.logEvent b c x p a d).core = s.core := by simp [State.logEvent]
@[simp] theorem State.core_err (o b c : Nat) (x : Cls) (p : Option Nat) (a : Nat) (d : BitVec 64) :
    (s.err o b c x p a d).core = s.core := by simp [State.err]
@[simp] theorem State.core_bump (n k : Nat) : (s.bump n k).core = s.core :=
  State.core_bumpBy s _ (fun _ u => State.core_ovfLog u _) n k
@[simp] theorem State.core_countIn (c : Nat) (a : Attr) (k : Nat) (r : List Nat) (u : State) :
    (countIn c a k r u).core = u.core := by
  induction r generalizing u with
  | nil => rfl
  | cons n r ih => rw [countIn, ih]; split <;> simp
@[simp] theorem State.core_tally (c k : Nat) : (s.setMgt (s.mgt.tally c k)).core = s.core := by
  unfold Mgt.tally; repeat' split
  all_goals rfl
@[simp] theorem State.core_count (c : Nat) (a : Attr) (k : Nat) : (s.count c a k).core = s.core := by
  unfold State.count; dsimp only; split <;> simp
@[simp] theorem State.core_sendMsg (l : Nat) (m : Msg) : (s.sendMsg l m).core = s.core := by
  unfold State.sendMsg; dsimp only; split <;> simp
theorem State.core_flushWait (l : Nat) (w : List Msg) (u : State) : (flushWait l w u).core = u.core := by
  induction w generalizing u with
  | nil => rfl
  | cons m w ih => rw [flushWait, ih, core_sendMsg]
@[simp] theorem State.core_flushLink (l : Nat) : (s.flushLink l).core = s.core := by
  simp [State.flushLink, State.core_flushWait]

/-! ### The tables that reporting writes, and links apart from what is sent -/

/-- The tables that reporting writes are in canonical form. -/
def State.repWf (s : State) : Prop :=
  twf csrInit s.csr = true ∧ twf linkDef s.links = true ∧ twf cntDef s.cnts = true

theorem State.repWf_of (h : s.tablesWf = true) : s.repWf := by
  simp only [State.tablesWf, Bool.and_eq_true] at h
  simp [State.repWf, h]

/-- `t` follows from `s` by reporting: the same core, canonical tables again, and each link as it was but for what was
sent on it. -/
structure Reported (s t : State) : Prop where
  core : t.core = s.core
  wf : s.repWf → t.repWf
  link : s.repWf → ∀ l, (t.link l).core = (s.link l).core

theorem Reported.refl : Reported s s := ⟨rfl, id, fun _ _ => rfl⟩

variable {s}

theorem Reported.trans {t u : State} (h : Reported s t) (k : Reported t u) : Reported s u :=
  ⟨k.core.trans h.core, fun w => k.wf (h.wf w), fun w l => (k.link (h.wf w) l).trans (h.link w l)⟩

/-- A change of fields that are neither tables that reporting writes nor in the core. -/
theorem Reported.of_eq {t : State} (h : t.core = s.core) (h1 : t.csr = s.csr) (h2 : t.links = s.links)
    (h3 : t.cnts = s.cnts) : Reported s t :=
  ⟨h, fun w => by unfold State.repWf at *; rw [h1, h2, h3]; exact w, fun _ l => by unfold State.link; rw [h2]⟩

variable (s)

theorem Reported.emit (o : Out) : Reported s (s.emit o) := .of_eq rfl rfl rfl rfl

theorem Reported.setHalf (l : Nat) (b : Bool) : Reported s (s.setHalf l b) := .of_eq rfl rfl rfl rfl

theorem Reported.setReg3 (o : Nat) (v : Reg3) : Reported s (s.setReg3 o v) :=
  ⟨rfl, fun w => ⟨by simp [State.setReg3, twf_tset, w.1], w.2.1, w.2.2⟩, fun _ _ => rfl⟩

theorem Reported.putReg (o : Nat) (v : Word) : Reported s (s.putReg o v) := Reported.setReg3 s o _
theorem Reported.writeReg (o : Nat) (v : Word) : Reported s (s.writeReg o v) := Reported.setReg3 s o _
theorem Reported.setBit (o n : Nat) : Reported s (s.setBit o n) := Reported.setReg3 s o _

theorem Reported.setCnt (n : Nat) (v : Cnt) : Reported s (s.setCnt n v) :=
  ⟨rfl, fun w => ⟨w.1, w.2.1, by simp [State.setCnt, twf_tset, w.2.2]⟩, fun _ _ => rfl⟩

theorem Reported.setLink (l : Nat) (v : Link) (h : v.core = (s.link l).core) : Reported s (s.setLink l v) := by
  refine ⟨rfl, fun w => ⟨w.1, by simp [State.setLink, twf_tset, w.2.1], w.2.2⟩, fun w j => ?_⟩
  have := tget_tset linkDef s.links l v j w.2.1
  simp only [State.link, State.setLink, this]
  split
  · subst_vars; exact h
  · rfl

theorem Reported.wake : Reported s s.wake := by
  unfold State.wake; split
  · exact .of_eq rfl rfl rfl rfl
  · exact .refl s

theorem Reported.driveAlert : Reported s s.driveAlert := by
  unfold State.driveAlert; dsimp only; split
  · exact .refl s
  · exact .of_eq rfl rfl rfl rfl

theorem Reported.wakeLink (l : Nat) : Reported s (s.wakeLink l) := by
  unfold State.wakeLink; dsimp only; split
  · refine ((Reported.wake s).trans (Reported.setLink _ l _ ?_)).trans (Reported.emit _ _)
    have : s.wake.link l = s.link l := by unfold State.wake; split <;> rfl
    rw [this]; rfl
  · exact .refl s

theorem Reported.sendRaw (l : Nat) (m : Msg) : Reported s (s.sendRaw l m).2 := by
  unfold State.sendRaw; dsimp only; split
  · exact ((Reported.setLink s l ((s.link l).send (s.txHalf.contains l) m) rfl).trans (Reported.setHalf _ _ _)).trans
      (Reported.emit _ _)
  · exact (Reported.setLink s l { s.link l with txWait := (s.link l).txWait ++ [m] } rfl).trans (Reported.wakeLink _ _)

theorem Reported.setEvt (v : List (Word × Word)) : Reported s (s.setMgt { s.mgt with evtFifo := v }) :=
  .of_eq rfl rfl rfl rfl

theorem Reported.setLog (f : Saf)
    (h : ({ s.saf with
      log := f.log, lost := f.lost, cntC := f.cntC, cntP := f.cntP, cntD := f.cntD, cntX := f.cntX
      cntAlarm := f.cntAlarm } : Saf) = f) : Reported s (s.setSaf f) := by
  rw [← h]; exact .of_eq rfl rfl rfl rfl

theorem Reported.pushLog (e : LogEnt) : Reported s (s.pushLog e) := by
  unfold State.pushLog; split
  · exact Reported.setLog s _ rfl
  · split
    · exact Reported.setLog s _ rfl
    · exact (Reported.setLog s { s.saf with log := logIn e s.saf.log.tail, lost := satInc s.saf.lost 65535 }
        rfl).trans (Reported.setBit _ rSafErr 6)

theorem Reported.pushEvtBy (rise : State → State) (h : ∀ u, Reported u (rise u)) (e : LogEnt) :
    Reported s (s.pushEvtBy rise e) := by
  unfold State.pushEvtBy; split
  · dsimp only; split
    · exact (Reported.setEvt s _).trans (h _)
    · exact Reported.setEvt s _
  · exact Reported.setBit s _ _

theorem Reported.ovfLogBy (rise : State → State) (h : ∀ u, Reported u (rise u)) (n : Nat) :
    Reported s (s.ovfLogBy rise n) := (Reported.pushLog s _).trans (Reported.pushEvtBy _ rise h _)

theorem Reported.bumpBy (note : Nat → State → State) (h : ∀ n u, Reported u (note n u)) (n k : Nat) :
    Reported s (s.bumpBy note n k) := by
  unfold State.bumpBy; dsimp only
  have g := Reported.setCnt s n { s.cnt n with value := BitVec.ofNat 48 ((s.cnt n).value.toNat + k) }
  repeat' split
  all_goals first
    | exact g
    | exact g.trans (Reported.setBit _ _ _)
    | exact (g.trans (Reported.setBit _ _ _)).trans (h _ _)

theorem Reported.countFlits (note : Nat → State → State) (h : ∀ n u, Reported u (note n u)) (l k : Nat) :
    Reported s (s.countFlits note l k) := by
  have g : ∀ (r : List Nat) (u : State), Reported u (r.foldl (fun s n =>
      if s.fld (rCntCfg n) 0 7 == 3 && cntPasses s n { link := some l } then s.bumpBy note n k else s) u) := by
    intro r
    induction r with
    | nil => intro u; exact .refl u
    | cons n r ih =>
      intro u; rw [List.foldl_cons]; refine Reported.trans ?_ (ih _)
      split
      · exact Reported.bumpBy _ note h _ _
      · exact .refl u
  unfold State.countFlits; split
  · exact .refl s
  · exact g _ _

theorem Reported.sendIntrBy (note : Nat → State → State) (h : ∀ n u, Reported u (note n u)) (src sub : Nat) :
    Reported s (s.sendIntrBy note src sub) := by
  unfold State.sendIntrBy; dsimp only; split
  · exact (Reported.sendRaw s _ _).trans (Reported.countFlits _ note h _ _)
  · exact .refl s

theorem Reported.raiseBy (note : Nat → State → State) (h : ∀ n u, Reported u (note n u)) (src sub : Nat) :
    Reported s (s.raiseBy note src sub) := by
  unfold State.raiseBy; split
  · exact .refl s
  · refine Reported.trans ((Reported.setBit s rIntrPend src).trans ?_) (Reported.driveAlert _)
    have f : ∀ u : State, Reported u (if u.bit rIntrMask src then u.sendIntrBy note src sub else u) := by
      intro u; split
      · exact Reported.sendIntrBy u note h _ _
      · exact .refl u
    have g : ∀ u : State, Reported u (if u.bit rIntrMask (20 + src) && u.mgt.i3c.canIbi then u.emit u.intrIbi else u) := by
      intro u; split
      · exact Reported.emit u _
      · exact .refl u
    exact (f _).trans (g _)

/-- What logging an overflow can do (R348). -/
theorem Reported.ovfLog (n : Nat) : Reported s (State.ovfLog n s) :=
  Reported.ovfLogBy s _ (fun u => Reported.raiseBy u _ (fun n v => Reported.ovfLogBy v id (fun w => .refl w) n) 1 0) n

theorem Reported.sendIntr (src sub : Nat) : Reported s (s.sendIntr src sub) :=
  Reported.sendIntrBy s _ (fun _ u => Reported.ovfLog u _) src sub

/-- What raising a source can do (R322). -/
theorem Reported.raise (src sub : Nat) : Reported s (s.raise src sub) :=
  Reported.raiseBy s _ (fun _ u => Reported.ovfLog u _) src sub

theorem Reported.pushEvt (e : LogEnt) : Reported s (s.pushEvt e) :=
  Reported.pushEvtBy s _ (fun u => Reported.raise u 1 0) e

theorem Reported.countCls (c : Cls) : Reported s (s.countCls c) := by
  cases c
  · exact .refl s
  · exact (Reported.setLog s { s.saf with cntC := satInc s.saf.cntC 0xffffffff } rfl).trans (Reported.raise _ 3 0)
  · exact (Reported.setLog s { s.saf with cntP := satInc s.saf.cntP 0xffffffff } rfl).trans (Reported.raise _ 4 0)
  · exact (Reported.setLog s { s.saf with cntD := satInc s.saf.cntD 0xffffffff } rfl).trans (Reported.raise _ 5 0)
  · exact (Reported.setLog s { s.saf with cntX := satInc s.saf.cntX 0xffffffff } rfl).trans (Reported.raise _ 6 0)
  · exact (Reported.setLog s { s.saf with cntAlarm := satInc s.saf.cntAlarm 0xffffffff } rfl).trans
      (Reported.raise _ 7 0)

/-- What logging an event can do (R328). -/
theorem Reported.logEvent (b c : Nat) (x : Cls) (p : Option Nat) (a : Nat) (d : BitVec 64) :
    Reported s (s.logEvent b c x p a d) :=
  ((Reported.pushLog s _).trans (Reported.pushEvt _ _)).trans (Reported.countCls _ _)

/-- What an error report can do (R330). -/
theorem Reported.err (o b c : Nat) (x : Cls) (p : Option Nat) (a : Nat) (d : BitVec 64) :
    Reported s (s.err o b c x p a d) := (Reported.setBit s _ _).trans (Reported.logEvent _ _ _ _ _ _ _)

theorem Reported.bump (n k : Nat) : Reported s (s.bump n k) :=
  Reported.bumpBy s _ (fun _ u => Reported.ovfLog u _) n k

theorem Reported.countIn (c : Nat) (a : Attr) (k : Nat) (r : List Nat) (u : State) : Reported u (countIn c a k r u) := by
  induction r generalizing u with
  | nil => exact .refl u
  | cons n r ih =>
    rw [Machine.countIn]; refine Reported.trans ?_ (ih _)
    split
    · exact Reported.bump _ _ _
    · exact .refl u

/-- What counting an occurrence can do (R343). -/
theorem Reported.count (c : Nat) (a : Attr) (k : Nat) : Reported s (s.count c a k) := by
  have h : Reported s (s.setMgt (s.mgt.tally c k)) := .of_eq (s.core_tally c k) rfl rfl rfl
  unfold State.count; dsimp only; split
  · exact h
  · exact h.trans (Reported.countIn _ _ _ _ _)

/-- What sending a message can do: apart from what reporting changes, no more than the sending link's tolls, sequence
number, buffers and wake. -/
theorem Reported.sendMsg (l : Nat) (m : Msg) : Reported s (s.sendMsg l m) := by
  unfold State.sendMsg; dsimp only; split
  · exact Reported.sendRaw s l m
  · exact (Reported.sendRaw s l m).trans (Reported.count _ _ _ _)

theorem Reported.flushWait (l : Nat) (w : List Msg) (u : State) : Reported u (flushWait l w u) := by
  induction w generalizing u with
  | nil => exact .refl u
  | cons m w ih => rw [Machine.flushWait]; exact (Reported.sendMsg u l m).trans (ih _)

theorem Reported.flushLink (l : Nat) : Reported s (s.flushLink l) :=
  (Reported.setLink s l { s.link l with txWait := [] } rfl).trans (Reported.flushWait l _ _)

/-! ### What reporting leaves as it was -/

variable {s} {t : State} (h : Reported s t)
include h

theorem Reported.pending : t.pending = s.pending := by
  show t.core.pending = s.core.pending; rw [h.core]
theorem Reported.tick : t.tick = s.tick := by
  show t.core.tick = s.core.tick; rw [h.core]
theorem Reported.fc : t.fc = s.fc := by
  show t.core.fc = s.core.fc; rw [h.core]
theorem Reported.free : t.free = s.free := by
  show t.core.free = s.core.free; rw [h.core]
theorem Reported.arrival : t.arrival = s.arrival := by
  show t.core.arrival = s.core.arrival; rw [h.core]
theorem Reported.order : t.order = s.order := by
  show t.core.order = s.core.order; rw [h.core]
theorem Reported.ring : t.ring = s.ring := by
  show t.core.ring = s.core.ring; rw [h.core]
theorem Reported.ports : t.ports = s.ports := by
  show t.core.ports = s.core.ports; rw [h.core]
theorem Reported.queues : t.queues = s.queues := by
  show t.core.queues = s.core.queues; rw [h.core]
theorem Reported.arbs : t.arbs = s.arbs := by
  show t.core.arbs = s.core.arbs; rw [h.core]
theorem Reported.home : t.home = s.home := by
  show t.core.home = s.core.home; rw [h.core]
theorem Reported.wp : t.wp = s.wp := by
  show t.core.wp = s.core.wp; rw [h.core]
theorem Reported.prk : t.prk = s.prk := by
  show t.core.prk = s.core.prk; rw [h.core]
theorem Reported.mem : t.mem = s.mem := by
  show t.core.mem = s.core.mem; rw [h.core]
theorem Reported.cry : t.cry = s.cry := by
  show t.core.cry = s.core.cry; rw [h.core]
theorem Reported.dma : t.dma = s.dma := by
  show t.core.dma = s.core.dma; rw [h.core]
theorem Reported.boot : t.power.boot = s.power.boot := by
  show t.core.power.boot = s.core.power.boot; rw [h.core]
theorem Reported.frames : t.sto.frames = s.sto.frames := by
  show t.core.sto.frames = s.core.sto.frames; rw [h.core]
theorem Reported.epoch : t.sto.epoch = s.sto.epoch := by
  show t.core.sto.epoch = s.core.sto.epoch; rw [h.core]
theorem Reported.safe : t.saf.safe = s.saf.safe := by
  show t.core.saf.safe = s.core.saf.safe; rw [h.core]
theorem Reported.drainBusy : t.saf.drainBusy = s.saf.drainBusy := by
  show t.core.saf.drainBusy = s.core.saf.drainBusy; rw [h.core]
theorem Reported.marker : t.saf.marker = s.saf.marker := by
  show t.core.saf.marker = s.core.saf.marker; rw [h.core]

end Sys2Proof.Machine

namespace Sys2Proof.Machine

/-! ### Pending bits only rise -/

theorem State.bit_pend (s : State) (n : Nat) : s.bit rIntrPend n = (s.reg3 rIntrPend).a.getLsbD n := by
  have h : s.reg rIntrPend = (s.reg3 rIntrPend).a := rfl
  rw [Bool.eq_iff_iff]
  simp [State.bit, State.fld, h, field, BitVec.getLsbD, Nat.testBit_eq_decide_div_mod_eq]

/-- Reporting leads from `s` to `t` and clears no pending bit (R322). -/
def Rises (s t : State) : Prop :=
  Reported s t ∧ (s.repWf → ∀ n, s.bit rIntrPend n = true → t.bit rIntrPend n = true)

variable {s t u : State}

theorem Rises.refl (s : State) : Rises s s := ⟨.refl s, fun _ _ h => h⟩

theorem Rises.trans (h : Rises s t) (k : Rises t u) : Rises s u :=
  ⟨h.1.trans k.1, fun w n b => k.2 (h.1.wf w) n (h.2 w n b)⟩

theorem Rises.of_csr (h : Reported s t) (k : t.csr = s.csr) : Rises s t := by
  refine ⟨h, fun _ n b => ?_⟩
  rw [State.bit_pend] at *; simpa [State.reg3, k] using b

variable (s)

theorem Rises.setBit (o m : Nat) : Rises s (s.setBit o m) := by
  refine ⟨Reported.setBit s o m, fun w n k => ?_⟩
  rw [State.bit_pend] at *
  have := tget_tset csrInit s.csr o
    ⟨(s.reg3 o).a ||| fieldMask m 1, (s.reg3 o).b ||| fieldMask m 1, (s.reg3 o).c ||| fieldMask m 1⟩ rIntrPend w.1
  simp only [State.reg3, State.setBit, State.setReg3] at *
  rw [this]; split
  · next h => subst h; simp [k]
  · exact k

theorem Rises.sendRaw (l : Nat) (m : Msg) : Rises s (s.sendRaw l m).2 := by
  refine .of_csr (Reported.sendRaw s l m) ?_
  unfold State.sendRaw; dsimp only; split
  · rfl
  · unfold State.wakeLink State.wake; dsimp only; repeat' split
    all_goals rfl

theorem Rises.pushLog (e : LogEnt) : Rises s (s.pushLog e) := by
  unfold State.pushLog; split
  · exact .of_csr (Reported.setLog s _ rfl) rfl
  · split
    · exact .of_csr (Reported.setLog s _ rfl) rfl
    · exact Rises.trans (.of_csr (Reported.setLog s { s.saf with
        log := logIn e s.saf.log.tail, lost := satInc s.saf.lost 65535 } rfl) rfl) (Rises.setBit _ rSafErr 6)

theorem Rises.pushEvtBy (rise : State → State) (h : ∀ u, Rises u (rise u)) (e : LogEnt) : Rises s (s.pushEvtBy rise e) := by
  unfold State.pushEvtBy; split
  · dsimp only; split
    · exact Rises.trans (.of_csr (Reported.setEvt s (evtIn e (s.saf.log.reverse.takeWhile e.precedes).length s.mgt.evtFifo)) rfl) (h _)
    · exact .of_csr (Reported.setEvt s _) rfl
  · exact Rises.setBit s _ _

theorem Rises.ovfLogBy (rise : State → State) (h : ∀ u, Rises u (rise u)) (n : Nat) : Rises s (s.ovfLogBy rise n) :=
  (Rises.pushLog s _).trans (Rises.pushEvtBy _ rise h _)

theorem Rises.bumpBy (note : Nat → State → State) (h : ∀ n u, Rises u (note n u)) (n k : Nat) :
    Rises s (s.bumpBy note n k) := by
  unfold State.bumpBy; dsimp only
  have g : Rises s (s.setCnt n { s.cnt n with value := BitVec.ofNat 48 ((s.cnt n).value.toNat + k) }) :=
    .of_csr (Reported.setCnt s n _) rfl
  repeat' split
  all_goals first
    | exact g
    | exact g.trans (Rises.setBit _ _ _)
    | exact (g.trans (Rises.setBit _ _ _)).trans (h _ _)

theorem Rises.countFlits (note : Nat → State → State) (h : ∀ n u, Rises u (note n u)) (l k : Nat) :
    Rises s (s.countFlits note l k) := by
  have g : ∀ (r : List Nat) (u : State), Rises u (r.foldl (fun s n =>
      if s.fld (rCntCfg n) 0 7 == 3 && cntPasses s n { link := some l } then s.bumpBy note n k else s) u) := by
    intro r
    induction r with
    | nil => intro u; exact .refl u
    | cons n r ih =>
      intro u; rw [List.foldl_cons]; refine Rises.trans ?_ (ih _)
      split
      · exact Rises.bumpBy _ note h _ _
      · exact .refl _
  unfold State.countFlits; split
  · exact .refl s
  · exact g _ _

theorem Rises.driveAlert : Rises s s.driveAlert := by
  refine .of_csr (Reported.driveAlert s) ?_
  unfold State.driveAlert; dsimp only; split <;> rfl

theorem Rises.raiseBy (note : Nat → State → State) (h : ∀ n u, Rises u (note n u)) (src sub : Nat) :
    Rises s (s.raiseBy note src sub) := by
  unfold State.raiseBy; split
  · exact .refl s
  · refine Rises.trans ((Rises.setBit s rIntrPend src).trans ?_) (Rises.driveAlert _)
    have f : ∀ u : State, Rises u (if u.bit rIntrMask src then u.sendIntrBy note src sub else u) := by
      intro u; split
      · unfold State.sendIntrBy; dsimp only; split
        · exact (Rises.sendRaw _ _ _).trans (Rises.countFlits _ note h _ _)
        · exact .refl _
      · exact .refl u
    have g : ∀ u : State, Rises u (if u.bit rIntrMask (20 + src) && u.mgt.i3c.canIbi then u.emit u.intrIbi else u) := by
      intro u; split
      · exact .of_csr (Reported.emit u _) rfl
      · exact .refl u
    exact (f _).trans (g _)

/-- Raising a source clears no pending bit (R322). -/
theorem Rises.raise (src sub : Nat) : Rises s (s.raise src sub) :=
  Rises.raiseBy s _ (fun n u => Rises.ovfLogBy u _
    (fun v => Rises.raiseBy v _ (fun m x => Rises.ovfLogBy x id (fun y => .refl y) m) 1 0) n) src sub

end Sys2Proof.Machine
end

