-- ==== Sys2Proof/Tests/Slice0.lean ====
section
/-! SUPPORT. Tests: ill-formed commands, values of the manual's own tables and examples, and for every statement a concrete state
and operands that meet its hypotheses. -/
namespace Sys2Proof.Tests
open Sys2Proof Sys2Proof.Machine
set_option Elab.async false

/-! ### Small states -/

/-- A link that carries messages. -/
def tLink : Link := { Link.init with
  state := .active, rate := 2, roleCaching := true, streamCntM1 := 63, present := true
  adv := ⟨480, 64, 200, 480, 64⟩, txAvail := ⟨480, 64, 200, 480, 64⟩ }

def tMgt : Mgt := { Mgt.init with slotA := none, slotB := none }

/-- A running device with CW0 ACTIVE. -/
def tUp : State := { State.reset with
  power := { Power.init with boot := .run, porstN := true, vbakOk := true }
  sto := { Store.init with epoch := 5, epochSaved := 5 }
  mem := { Mem.init with trained := true, density := 1, rate := 7 }
  mgt := tMgt
  links := [(0, tLink)] }

def tPow (s : State) (f : Power → Power) : State := { s with power := f s.power }
def tSaf (s : State) (f : Saf → Saf) : State := { s with saf := f s.saf }

/-- CW0, or another link, with a record of its own. -/
def tWith (l : Nat) (k : Link) : State := { tUp with links := [(l, k)] }

/-- A register with this word in all copies. -/
def tReg (s : State) (o : Nat) (w : Word) : State := s.setReg3 o ⟨w, w, w⟩

def tStraps (r : Bool) : Straps := ⟨0, r⟩

/-- The state that a command gives. -/
def after (c : Instr) (s : State) : State :=
  match exec c s with
  | .next t => t
  | _ => s

def tTick : TickIn := ⟨0x3f, List.replicate 16 0, false, List.replicate 16 1, false, false, 0, 0⟩

def tReq : Req := ⟨0, 0, 0, 1, 127, 0x1000, 0, 0⟩

/-! ### Well-formed commands: one ill-formed term for each check -/

theorem test_wf_power :
    Instr.wf (.vmainSenseFall [(3, {}), (3, {})]) = false ∧ Instr.wf (.vmainSenseFall [(3, {}), (4, {})]) = true ∧
    Instr.wf (.tickBoundary { tTick with telem := [] }) = false ∧ Instr.wf (.tickBoundary tTick) = true := by decide

theorem test_wf_links :
    Instr.wf (.presenceAssert 13) = false ∧ Instr.wf (.presenceDeassert 0) = false ∧ Instr.wf (.surpriseDetach 13) = false ∧
    Instr.wf (.presenceAssert 14) = true := by decide

/-- R57: eight data slots for a whole line; 1 byte in one chunk, 2 bytes over a chunk border in two. -/
theorem test_wf_slots :
    Instr.wf (.wbFull 0 tReq []) = false ∧ Instr.wf (.wrFull 0 tReq (List.replicate 7 0)) = false ∧
    Instr.wf (.wrFull 0 tReq (List.replicate 8 0)) = true ∧
    Instr.wf (.wrPtl 0 { tReq with sizeM1 := 1, addr := 0x100f } [0]) = false ∧
    Instr.wf (.wrPtl 0 { tReq with sizeM1 := 1, addr := 0x100f } [0, 0]) = true ∧
    Instr.wf (.wrCond 0 { tReq with sizeM1 := 0 } []) = false ∧ Instr.wf (.atomic 0 { tReq with atomSize := 4 } [0]) = false ∧
    Instr.wf (.data 0 ⟨0, 0, 0, 0, 0, false, false, 0⟩ (List.replicate 9 0)) = false ∧
    Instr.wf (.snpData 0 ⟨0, 0, 0, 0, 0, false, false, 0⟩ (List.replicate 9 0)) = false := by decide

theorem test_wf_registers :
    Instr.wf (.windowWrite 0x80500 0) = false ∧ Instr.wf (.windowWrite 0x80102 0) = false ∧
    Instr.wf (.windowWrite 0x804fc 0) = true ∧ Instr.wf (.registerWrite 2 0) = false ∧
    Instr.wf (.dmaEnable 0 0) = false ∧ Instr.wf (.dmaDisable 0 1) = false ∧ Instr.wf (.dmaShadowArm 0 0) = false ∧
    Instr.wf (.quarRelease 0 0) = false ∧ Instr.wf (.retrain 0 0) = false ∧ Instr.wf (.linkEnable 0 0) = false ∧
    Instr.wf (.linkDisable 0 1) = false ∧ Instr.wf (.maintClean 0x80000002) = false ∧ Instr.wf (.maintClean 0x80000001) = true ∧
    Instr.wf (.splitWrite 0x80000200) = false ∧ Instr.wf (.testRead 0x80000000 {}) = false ∧
    Instr.wf (.vacancyDeclare 0x80020000) = false ∧ Instr.wf (.vacancyWithdraw 0x80000000) = false ∧
    Instr.wf (.slotRelease 0) = false ∧ Instr.wf (.flush 0) = false ∧
    Instr.wf (.i3cPrivateWrite (List.replicate 4097 0)) = false ∧ Instr.wf (.ageSweepStart [1, 1]) = false := by decide +kernel

/-- The table gives no row any bits, so no word spells a command. -/
theorem test_no_words : decodeTableWord 8 0 = none ∧ decodeTableWord 32 0xffffffff = none := by decide

/-! ### Values of the manual -/

/-- R41: the CRC-32C check value over the ASCII string 123456789. -/
theorem test_crc32c : crc32c [0x31, 0x32, 0x33, 0x34, 0x35, 0x36, 0x37, 0x38, 0x39] = 0xE3069283 := by decide +kernel

/-- R362, worked example: levels 0, 1, 2, 2, 1. -/
theorem test_governor_example :
    nextLevel 0 true false = 1 ∧ nextLevel 1 true false = 2 ∧ nextLevel 2 false false = 2 ∧ nextLevel 2 false true = 1 := by decide

/-! ### Hypotheses of the statements: the machine, power and the tick -/

theorem test_hyp_StepRunsFrontCommand :
    ({ tUp with pending := [.idleEntry, .idleExit] } : State).pending = .idleEntry :: [.idleExit] := rfl

theorem test_hyp_IdleStep :
    State.reset.pending = [] ∧ State.reset.power.boot.clocked = false ∧ State.reset.power.boot ≠ .powerDrain ∧
    tUp.power.boot.clocked = true ∧ 1536000 ≤ ({ tUp with fc := 1535999 } : State).fc + 1 := by decide

theorem test_hyp_StepKeepsCanonical : tUp.tablesWf = true ∧ step tUp = .next (idleFc tUp) := ⟨by decide, rfl⟩

theorem test_hyp_CanonicalForm :
    tUp.tablesWf = true ∧ twf (α := Option Line) noneDef [(0, some 1)] = true ∧ twf csrInit [(0x10004, ⟨7, 7, 7⟩)] = true := by
  decide +kernel

def tSeal (ok : Bool) : Seal := ⟨.standby, 4, 0, 0, 0, 0, [], ok⟩

theorem test_hyp_BootWithoutSeal :
    votesHold rMemCtrl (State.reset.reg3 rMemCtrl) = true ∧
    (State.reset.tablesWf = true ∧ State.reset.power.porstN = false ∧ (tStraps true).recover = true) ∧
    (State.reset.prk.sealRec = none ∧ (tStraps false).recover = false) ∧
    (let s := tPow tUp (fun p => { p with vmainOk := false, boot := .off, offDrain := true });
      s.tablesWf = true ∧ s.prk.sealRec = none ∧ s.power.porstN = true ∧ s.power.vmainOk = false ∧ s.power.boot = .off ∧
      s.power.offDrain = true ∧ s.power.straps.recover = false) ∧
    (let s := { tPow tUp (fun p => { p with boot := .keyWait }) with prk := { Park.init with sealRec := some (tSeal false) } };
      s.tablesWf = true ∧ s.power.boot = .keyWait ∧ s.saf.safe ≠ .stop ∧ s.prk.sealRec = some (tSeal false) ∧
      (tSeal false).crcOk = false) := by decide +kernel

/-- A device with an open transaction. -/
def tBusy : State := { tUp with home := { Home.init with slots := [(0, some (Slot.blank .rdShared (.port 0 0) 5))] } }

theorem test_hyp_WarmReset :
    (let s : State := tBusy;
      s.mayWarm = true ∧ ({ s.wake with power := { s.wake.power with warmN := false } } : State).quiet = false) ∧
    State.reset.mayWarm = false ∧
    (let s := tPow tUp (fun p => { p with boot := .warmDrain });
      s.tablesWf = true ∧ s.power.boot = .warmDrain ∧ s.quiet = true ∧ s.power.softPending = false ∧
      s.power.straps.recover = false ∧ s.sto.epoch ≠ 0 ∧ s.sto.epochSaved = s.sto.epoch ∧
      votesHold rMemCtrl (s.reg3 rMemCtrl) = true) := by decide +kernel

theorem test_hyp_PowerLossAndSupplies :
    (tUp.tablesWf = true ∧ tUp.power.vmainOk = true ∧ tUp.power.boot = .run ∧ tUp.saf.safe ≠ .stop ∧ tUp.power.vbakOk = true) ∧
    (tPow tUp (fun p => { p with vbakOk := false })).power.vbakOk = false ∧ tUp.power.boot ≠ .powerDrain ∧
    (tPow tUp (fun p => { p with boot := .powerDrain })).power.boot = .powerDrain := by decide

theorem test_hyp_StopStateAbandons :
    tUp.power.boot.clocked = true ∧ tUp.power.overTemp = false ∧ tUp.saf.safe ≠ .stop ∧ tUp.tablesWf = true := by decide

def tIdle : State := tPow { tUp with csr := [(rGlbPwrCtrl, ⟨1, 1, 1⟩)], links := [] } (fun p => { p with idle := true })

def tListen : State := { tPow tUp (fun p => { p with boot := .standbyEntry }) with csr := [(rLnkCtrl 15, ⟨0x80, 0x80, 0x80⟩)] }

theorem test_hyp_IdleAndStandby :
    (tPow { tIdle with fc := 0 } (fun p => { p with idle := false })).mayIdle = true ∧ tUp.mayIdle = false ∧
    tIdle.power.idle = true ∧
    (tListen.tablesWf = true ∧ tListen.power.boot = .standbyEntry ∧ tListen.power.replyPath = none ∧
      tListen.bit (rLnkCtrl 15) 7 = true ∧ tListen.bit (rLnkCtrl 0) 7 = false) ∧
    (let s := tPow tUp (fun p => { p with boot := .standby, stbyAck := true });
      s.power.boot = .standby ∧ s.power.stbyAck = true ∧ s.wakes .vmain = true) ∧
    (tPow tUp (fun p => { p with boot := .run })).wakes (.link 0) = false := by decide +kernel

def tNoPolice : State := { tUp with csr := [(rPrtGctl, ⟨0, 0, 0⟩)] }

theorem test_hyp_TickBoundaryQuiet :
    tNoPolice.tablesWf = true ∧ tNoPolice.power.boot = .run ∧ tNoPolice.saf.safe = .normal ∧ tNoPolice.saf.marker = true ∧
    tNoPolice.fld rPrtGctl 0 8 = 0 ∧ tNoPolice.power.softPending = false ∧ tTick.wrEccFatal = false ∧ ({ tTick with steps := 0x2f } : TickIn).steps.getLsbD 4 = false ∧
   
    nextLevel 7 true false = 7 ∧ nextLevel 0 false true = 0 := by decide +kernel

theorem test_hyp_TickMarks :
    (let s := tSaf tUp (fun f => { f with marker := false, stepsDone := 0x7f });
      s.power.boot = .run ∧ s.saf.safe = .normal ∧ s.stepsMissing = 0 ∧ s.saf.marker = false ∧ s.saf.overrunSeen = false ∧
      s.saf.overrunRun = 0 ∧ Nat.land s.pendBits (s.fld rIntrMask 20 10) = 0) ∧
    (let s : State := { tSaf tUp (fun f => { f with stepsDone := 0x3f }) with tick := 63 };
      s.wearDue = true ∧ s.tablesWf = true) ∧ tUp.wearDue = false ∧
    (tSaf tUp (fun f => { f with stepsDone := 0 })).stepsMissing ≠ 0 ∧ tUp.saf.marker = true ∧
    tUp.live = true ∧ tUp.tablesWf = true ∧ tIdle.power.idle = true ∧ tUp.power.idle = false := by decide +kernel

theorem test_hyp_ShoulderEntryAndEnd :
    (let s := tSaf tUp (fun f => { f with marker := false, overrunRun := 1 });
      s.tablesWf = true ∧ s.power.boot = .run ∧ s.saf.safe = .normal ∧ s.saf.marker = false ∧ s.saf.overrunSeen = false ∧
      s.saf.overrunRun = 1) ∧
    (let s := tSaf tUp (fun f => { f with safe := .shoulder, drainBusy := true });
      s.shoulderReady = true ∧ s.mem.overflow = false ∧ s.dirtyWays = [] ∧ s.framesUsed (cacheFrames s.prk.size) = [] ∧ s.prk.slots = [] ∧
      s.tablesWf = true) := by decide +kernel

/-! ### Hypotheses of the statements: links -/

def tParam : TsParam := ⟨1, 2, 0xff, 3, 18, 16, 16, 36, 4, 64⟩

/-- The partner's last TS_PARAM is the eighth alike, and sixteen have been sent. -/
def tParamDone : Link := { Link.init with
  state := .param, lastParam := some tParam, paramSame := 7, paramSent := 15, laneGood := 0xff }

/-- In EQ with the caching role. -/
def tEqCaching (l : Nat) (wide : Option Bool) : State :=
  { tReg (tWith l { tLink with state := .eq }) (rLnkCtrl l) 3 with home := { Home.init with wide := wide } }

theorem test_hyp_LinkTrains :
    (let s := tWith 0 Link.init;
      s.power.boot = .run ∧ (s.link 0).state = .detect ∧ 0 < 14 ∧ 4 ≤ popcount (0x0f : BitVec 8)) ∧
    (let s := tWith 15 { Link.init with prsntHigh := false }; (s.link 15).state = .detect ∧ (s.link 15).prsntHigh = false) ∧
    (let s := tWith 0 { Link.init with state := .sync }; (s.link 0).state = .sync ∧ chooseWidth 0xf0 false = some (true, true)) ∧
    (let s := tWith 0 { tLink with state := .retrain }; (s.link 0).state = .retrain ∧ (s.link 0).x4 = false) ∧
    (let s := tEqCaching 0 none;
      (s.link 0).state = .eq ∧ (s.link 0).roleCaching = true ∧ s.home.wide = none ∧
      s.votesOk (s.votedUsed usesLinks) = true ∧ s.saf.safe ≠ .stop ∧ s.bit (rLnkCtrl 0) 1 = true ∧ s.mgt.shoulder = false) ∧
    (let s := tEqCaching 14 (some true);
      (s.link 14).state = .eq ∧ (s.link 14).roleCaching = true ∧ s.home.wide = some true ∧
      s.votesOk (s.votedUsed usesLinks) = true ∧ (tEqCaching 14 none).cachingBits ≤ 8) ∧
    (let s := tWith 0 { tLink with state := .eq, roleCaching := false };
      (s.link 0).state = .eq ∧ (s.link 0).roleCaching = false ∧ s.votesOk (s.votedUsed usesLinks) = true) ∧
    (let s := tWith 0 { Link.init with state := .param }; (s.link 0).state = .param ∧ (s.link 0).lastParam ≠ some tParam) ∧
    (let s := tWith 0 { Link.init with state := .param, lastParam := some tParam, paramSame := 6, paramSent := 15 };
      (s.link 0).state = .param ∧ (s.link 0).lastParam = some tParam ∧ (s.link 0).paramSame < 7) ∧
    (let s := tWith 0 { Link.init with state := .param, lastParam := some tParam, paramSame := 7, paramSent := 14 };
      (s.link 0).state = .param ∧ (s.link 0).lastParam = some tParam ∧ (s.link 0).paramSent < 15) ∧
    (let s := tWith 0 tParamDone;
      s.tablesWf = true ∧ (s.link 0).state = .param ∧ (s.link 0).lastParam = some tParam ∧ 7 ≤ (s.link 0).paramSame ∧
      15 ≤ (s.link 0).paramSent ∧ s.votesOk (s.votedUsed usesLinks) = true ∧ s.saf.safe ≠ .stop ∧ tParam.protoVer = 1 ∧
      1 ≤ tParam.streamCnt.toNat ∧ tParam.streamCnt.toNat ≤ 64 ∧ 18 ≤ tParam.req.toNat ∧ 16 ≤ tParam.snp.toNat ∧
      16 ≤ tParam.rsp.toNat ∧ 36 ≤ tParam.dat.toNat ∧ 4 ≤ tParam.ctl.toNat ∧ (s.link 0).laneGood &&& tParam.laneOk = 255 ∧
      s.bit (rLnkCtrl 0) 4 = false) := by decide +kernel

theorem test_hyp_TrainingEnds :
    (let s := tWith 0 { Link.init with state := .sync, trainFails := 1 }; (s.link 0).state = .sync ∧ (s.link 0).trainFails < 2) ∧
    (let s := tWith 0 { Link.init with state := .sync, trainFails := 2 }; (s.link 0).state = .sync ∧ 2 ≤ (s.link 0).trainFails) ∧
    (let s := tWith 0 { Link.init with state := .param, trainFails := 1 }; (s.link 0).state = .param ∧ (s.link 0).trainFails < 2) ∧
    (let s := tWith 0 { Link.init with state := .param, trainFails := 2 }; (s.link 0).state = .param ∧ 2 ≤ (s.link 0).trainFails) ∧
    (let s := tWith 0 { Link.init with state := .eq, trainFails := 1 };
      (s.link 0).state = .eq ∧ (s.link 0).rate = 0 ∧ (s.link 0).trainFails < 2) ∧
    (let s := tWith 0 { Link.init with state := .eq, trainFails := 2 };
      (s.link 0).state = .eq ∧ (s.link 0).rate = 0 ∧ 2 ≤ (s.link 0).trainFails) ∧
    (let s := tWith 0 { Link.init with state := .eq, rate := 1 }; (s.link 0).state = .eq ∧ 0 < (s.link 0).rate) ∧
    (let s := tWith 13 Link.init; s.power.boot = .run ∧ (s.link 13).state = .detect) ∧
    (let s := tWith 0 { tLink with state := .retrain }; (s.link 0).state = .retrain) := by decide +kernel

theorem test_hyp_RetrainAndLinkControl :
    (let s := tWith 0 { tLink with retrainsTick := 3 }; (s.link 0).state = .active ∧ (s.link 0).retrainsTick ≠ 4) ∧
    (let s := tWith 0 { tLink with retrainsTick := 4 };
      (s.link 0).state = .active ∧ (s.link 0).retrainsTick = 4 ∧ 0 < (s.link 0).rate) ∧
    (let v : Word := 0x41;
      tUp.power.boot = .run ∧ tUp.saf.safe ≠ .stop ∧ v.getLsbD 0 = true ∧ v.getLsbD 5 = false ∧ v.getLsbD 6 = true ∧
      tUp.home.wide = none ∧ tUp.power.idle = false ∧ tUp.votesOk (tUp.votedUsed usesLinks) = true) ∧
    (let s := tWith 0 { Link.init with state := .disabled };
      s.power.boot = .run ∧ s.saf.safe ≠ .stop ∧ s.power.idle = false ∧ s.home.wide = none ∧ (1 : Word).getLsbD 0 = true ∧ (1 : Word).getLsbD 5 = false ∧
      (1 : Word).getLsbD 6 = false ∧ (s.link 0).state = .disabled) ∧
    ((0 : Word).getLsbD 0 = false ∧ (tUp.link 0).state.alive = true) ∧
    (let s := tWith 0 Link.init; (s.link 0).state = .detect) ∧
    (let s := tWith 0 { Link.init with state := .quarantine };
      let v : Word := 0x21;
      (s.link 0).state = .quarantine ∧ v.getLsbD 0 = true ∧ v.getLsbD 5 = true ∧ v.getLsbD 6 = false ∧ s.tablesWf = true ∧
      (s.reg3 (rLnkCtrl 0)).a.getLsbD 0 = true ∧ s.bit (rLnkCtrl 0) 0 = true) := by decide +kernel

/-- The link as it is when the flit's acknowledgment has been taken. -/
def tAcked (s : State) (f : Flit) : State := (s.setLink 0 ((s.link 0).ack f)).flush 0

def tBehind (s : State) (f : Flit) : Nat := (((tAcked s f).link 0).rxExp + 1024 - flitSeq f) % 1024

/-- A LINK flit with this opcode and first parameter byte. -/
def tLinkFlit (op n : Nat) : Flit := mkFlit (2 * 2 ^ 30 + op * 2 ^ 26) n

/-- A MSG flit whose slot 0 is a header and whose slot 1 is empty. -/
def tHdrFlit (m : MsgSlot) : Flit := mkFlit (2 ^ 30 + 2 ^ 6) m.toNat

theorem test_hyp_FlitsReceived_msg :
    (let f := mkFlit (1 * 2 ^ 30) 0;
      (tUp.link 0).state = .active ∧ flitCrcOk f = true ∧ flitType f = 1 ∧ flitKind0 f = 0 ∧ flitKind1 f = 0 ∧
      tBehind tUp f = 0 ∧ tBehind (tWith 0 { tLink with rxExp := 1 }) f = 1 ∧
      tBehind (tWith 0 { tLink with rxExp := 512 }) f = 512 ∧ tBehind (tWith 0 { tLink with rxExp := 513 }) f = 513 ∧
      ((tAcked (tWith 0 { tLink with rxExp := 513 }) f).link 0).nakOut = false) ∧
    flitCrcOk 1 = false := by decide +kernel

theorem test_hyp_FlitsReceived_link :
    (let f := mkFlit 0 0; flitCrcOk f = true ∧ flitType f = 0) ∧
    (∀ op : Fin 5, flitCrcOk (tLinkFlit op.val 1) = true ∧ flitType (tLinkFlit op.val 1) = 2 ∧
      flitLinkOp (tLinkFlit op.val 1) = op.val ∧ flitParam (tLinkFlit op.val 1) 0 = 1) ∧
    (let k := (tAcked tUp (tLinkFlit 2 1)).link 0; k.quiet = true ∧ k.pwrOut = none) ∧
    ((tAcked (tWith 0 { tLink with txWait := [⟨0, []⟩], txAvail := .zero }) (tLinkFlit 2 1)).link 0).quiet = false ∧
    ((tAcked (tWith 0 { tLink with pwrOut := some 1 }) (tLinkFlit 3 1)).link 0).pwrOut = some 1 ∧
    ((tUp.link 0).txWait = [] ∧ (tUp.link 0).wbDone = [] ∧ tUp.tablesWf = true ∧
      ((tUp.link 0).ack (tLinkFlit 2 1)).quiet = true ∧ ((tUp.link 0).ack (tLinkFlit 2 1)).pwrOut = none ∧
      ((tUp.link 0).ack (tLinkFlit 1 0)).replayRun < 7 ∧ tUp.bit rIntrRoute 10 = false) ∧
    (let k := (tWith 0 { tLink with rxFreed := ⟨0, 0, 0, 1, 0⟩ }).link 0; (k.ack (tLinkFlit 2 1)).quiet = false ∧ k.txWait = []) ∧
    (let k := ({ tLink with txSent := ⟨1, 0, 0, 0, 0⟩ } : Link).ack (tLinkFlit 0 1);
      ∀ c, c ≤ 4 → k.txRet.get c + ((flitParam (tLinkFlit 0 1) (2 * c) + 256 * flitParam (tLinkFlit 0 1) (2 * c + 1)) % 4096 +
        4096 - k.txRetSeen.get c) % 4096 ≤ k.txSent.get c) := by decide +kernel

def tIdleLink (w : Word) : State := { tUp with csr := [(rLnkPwr 0, ⟨w, w, w⟩)] }

theorem test_hyp_LinkTimers :
    (let s := tWith 0 { tLink with nakOut := true }; (s.link 0).state = .active ∧ (s.link 0).nakOut = true) ∧
    (let s := tWith 0 { tLink with replayBuf := [⟨0, 1, 0, 0, 0⟩] }; (s.link 0).state = .active ∧ (s.link 0).replayBuf ≠ []) ∧
    (let s := tWith 0 { tLink with rxFreed := ⟨0, 0, 0, 1, 0⟩ }; (s.link 0).state = .active ∧ (s.link 0).rxFreed.dat ≠ 0) ∧
    ((tUp.link 0).quiet = true ∧ (tUp.link 0).pwrOut = none ∧ (tIdleLink 1).lightFc 0 ≠ 0 ∧ (tIdleLink 1).deepFc 0 = 0 ∧
      (tIdleLink 0x10000).deepFc 0 ≠ 0) ∧
    (let s := tWith 0 { tLink with state := .sleepDeep, waking := true };
      s.tablesWf = true ∧ (s.link 0).state = .sleepDeep ∧ (s.link 0).waking = true ∧ (s.link 0).deepWake = false) := by decide +kernel

theorem test_hyp_TollsConserved :
    tLink.canSend ⟨ctlHdr 0x3A 0 0, []⟩ = true ∧ (⟨ctlHdr 0x3A 0 0, []⟩ : Msg).cls = 4 ∧
    ({ tLink with replayBuf := [⟨0, 1, 0, 0, 0⟩] } : Link).replayBuf = [] ++ [⟨0, 1, 0, 0, 0⟩] := by decide +kernel

theorem test_hyp_PresenceAndDetach :
    ((tWith 14 { Link.init with state := .detached }).link 14).state = .detached ∧
    (let s := tWith 15 { tLink with debounce := true }; (s.link 15).debounce = true ∧ (s.link 15).state = .active) ∧
    (tUp.link 14).debounce = false ∧
    (let s := tWith 14 { tLink with rxHeld := ⟨0, 0, 0, 0, 7⟩ };
      (s.link 14).state = .active ∧ (s.link 14).rxHeld.ctl + (s.link 14).rxFreed.ctl < 8) ∧
    (let s := tWith 14 { tLink with detaching := true };
      (s.link 14).state = .active ∧ (s.link 14).detaching = true ∧ s.detachReady 14 = true ∧
      (s.link 14).canSend detachAck = true ∧ (s.link 14).classClear detachAck = true) ∧
    (tUp.link 14).state ≠ .detached ∧
    ((tWith 13 tLink).link 13).state = .active := by decide +kernel

/-! ### Hypotheses of the statements: requests, queues and the home engine -/

/-- Access domain 0 may read and write all of memory through window 0. -/
def tOpen : State :=
  tReg (tReg (tReg (tReg tUp (rWinBase 0) 0x80000000) (rWinLimit 0) 0xffffff) (rAdRdLo 0) 1) (rAdWrLo 0) 1

theorem test_hyp_FlitsReceived_header :
    (let f := tHdrFlit (BitVec.ofNat 128 (opRdShared.toNat * 8 + 2 ^ 20 + 127 * 2 ^ 32 + 0x1000 * 2 ^ 40));
      let u := (tOpen.setLink 0 { (tOpen.link 0).ack f with rxExp := 1, rxAckVld := true, nakOut := false }).count 0x02
        { link := some 0 };
      flitCrcOk f = true ∧ flitType f = 1 ∧ flitSeq f = (tOpen.link 0).rxExp ∧ flitKind0 f = 1 ∧ flitKind1 f = 0 ∧
      (tOpen.link 0).assembly = none ∧ u.hdrSlots 0 (flitSlot0 f) = some 0 ∧ u.hdrFault 0 (flitSlot0 f) 0 = none) := by
  decide +kernel

def tAtom : Req := { tReq with sizeM1 := 7, atomOp := 0, atomSize := 3 }

def tCross : Req := { tReq with addr := 0x1040 }

theorem test_hyp_RequestQueued :
    tOpen.tablesWf = true ∧ tOpen.canEnter 0 tReq 0 = true ∧ tOpen.canEnter 0 tAtom 1 = true ∧ tOpen.poolRoom 0 2 = true ∧
    tOpen.poolRoom 0 1 = true ∧ (tOpen.port 0).layby = [] ∧ tOpen.canEnter 0 tCross 0 = true ∧
    (∀ op ∈ [opRdShared, opRdUnique, opRdOnce, opUpgrade, opEvictClean, opRdRsv], failures (tOpen.enqCheck 0 0 op tReq) = []) ∧
    failures (tOpen.enqCheck 0 0 opAtomic tAtom) = [] ∧ failures (tOpen.enqCheck 0 0 opRdOnce tCross) = [] ∧
    (reqParts opRdOnce tCross).length = 2 := by decide +kernel

theorem test_hyp_WriteAccepted :
    tOpen.tablesWf = true ∧ tOpen.canEnter 0 tReq 8 = true ∧ tOpen.laybyRoom 0 2 = true ∧ tOpen.laybyRoom 0 1 = true ∧
    (let cmp : Msg := ⟨rspHdr opCmp 0 0 1 stOk grI, []⟩;
      (tOpen.link 0).canSend cmp = true ∧ (tOpen.link 0).classClear cmp = true ∧ tOpen.bit rIntrRoute 10 = false) ∧
    (∀ e, (tOpen.port 0).mergeable e = false) ∧
    (∀ op ∈ [opWrFull, opWrPtl, opWbFull], failures (tOpen.enqCheck 0 0 op tReq) = []) ∧
    failures (tOpen.enqCheck 0 0 opWrPtl { tCross with sizeM1 := 126 }) = [] :=
  ⟨by decide +kernel, by decide +kernel, by decide +kernel, by decide +kernel, by decide +kernel, fun _ => rfl,
    by decide +kernel, by decide +kernel⟩

theorem test_hyp_CondAndFenceQueued :
    tOpen.tablesWf = true ∧ tOpen.canEnter 0 tReq 8 = true ∧ tOpen.canEnter 0 tReq 0 = true ∧ tOpen.poolRoom 0 1 = true ∧
    tOpen.laybyRoom 0 1 = true ∧ failures (tOpen.enqCheck 0 0 opWrCond tReq) = [] ∧ (tOpen.port 0).layby = [] ∧
    failures (tOpen.enqCheck 0 0 opFence tReq) = [] := by decide +kernel

theorem test_hyp_RequestsRefused :
    (let s := tReg (tReg tUp (rAdWrLo 0) 0) (rAdWrHi 0) 0;
      s.tablesWf = true ∧ s.canEnter 0 tReq 8 = true ∧ failures (s.enqCheck 0 0 opWrFull tReq) = [(.domain, 0x1000)]) ∧
    (let s := tSaf tOpen (fun f => { f with safe := .stop });
      s.tablesWf = true ∧ s.saf.safe = .stop ∧ (s.link 0).state = .active ∧ (s.link 0).detaching = false ∧
      tReq.stream.toNat ≤ (s.link 0).streamCntM1 ∧ tReq.tag.toNat ∉ (s.link 0).reqTags ∧ (s.link 0).held = [] ∧
      (s.link 0).rxHeld.req + (s.link 0).rxFreed.req + 1 ≤ 480 ∧ s.votesOk (s.votedUsed usesDomains) = true) ∧
    ((tWith 0 { tLink with detaching := true }).link 0).detaching = true ∧
    ((tWith 0 { tLink with streamCntM1 := 0 }).link 0).streamCntM1 < ({ tReq with stream := 1 } : Req).stream.toNat ∧
    tReq.tag.toNat ∈ ((tWith 0 { tLink with reqTags := [1] }).link 0).reqTags ∧
    (let s := tWith 0 { tLink with rxHeld := ⟨480, 0, 0, 0, 0⟩ };
      480 < (s.link 0).rxHeld.req + (s.link 0).rxFreed.req + 1 ∧ (s.link 0).state = .active) := by decide +kernel

def tSlot (line : Nat) : Slot := Slot.blank .rdShared (.port 0 0) line

/-- Slot 0 waits on the chain of line 5. -/
def tChained : State := { tUp with home := { Home.init with
  slots := [(0, some { tSlot 5 with phase := .chained })], chains := [(5, [0])] } }

def tParked : State := { tUp with
  ports := [(0, { Port.init with parked := [0] })]
  home := { Home.init with slots := [(0, some { tSlot 5 with dram := .parked })] } }

def tPf : State := { tUp with
  ports := [(0, { Port.init with pfq := [⟨0, 0, 0⟩] })]
  wp := { Waypoint.init with portTokens := 1, poolTokens := 1 } }

/-- A read of stream 0 in traffic class `tc` that waits in the receive buffer. -/
def tHeld (tc : BitVec 3) : HeldReq := ⟨opRdShared, { tReq with tc := tc }, [], 1, true, false, false⟩

def tHeldUp (hs : List HeldReq) : State := { tOpen with links := [(0, { tLink with held := hs, reqTags := [1] })] }

theorem test_hyp_WaitingGoOn :
    (let s := tHeldUp [tHeld 0];
      s.live = true ∧ (s.link 0).held = [tHeld 0] ∧ (tHeld 0).op = opRdShared ∧ (tHeld 0).crossed = false ∧
      s.saf.safe = .normal ∧ s.power.boot = .run ∧ (∀ j, j < 16 → j ≠ 0 → (s.link j).held = []) ∧
      s.votesOk (s.votedUsed usesDomains) = true ∧ s.poolRoom 0 1 = true ∧ (s.port 0).layby = [] ∧
      failures (s.enqCheck 0 0 opRdShared (tHeld 0).h) = []) ∧
    ((tHeldUp [tHeld 0, tHeld 0]).live = true ∧ (tHeld 0).blocks (tHeld 0) = true) ∧
    ((tHeld 1).blocks (tHeld 0) = false ∧ (tHeld 0).h.stream.toNat * 8 + (tHeld 0).h.tc.toNat
      < (tHeld 1).h.stream.toNat * 8 + (tHeld 1).h.tc.toNat) ∧
    (tChained.chain 5 = 0 :: [] ∧ tChained.txOpen 5 = false ∧ tChained.victimOf 5 = none ∧
      (tChained.setChain 5 []).slot 0 = some { tSlot 5 with phase := .chained }) ∧
    tUp.admits = true ∧
    ((tParked.port 0).missToken = none ∧ (tParked.port 0).parked = 0 :: [] ∧
      tParked.slot 0 = some { tSlot 5 with dram := .parked }) ∧
    ((tPf.port 0).pfq = ⟨0, 0, 0⟩ :: [] ∧ tPf.admits = true ∧ tPf.offline = false ∧ tPf.inletLinks (sliceOf 0) = [] ∧
      tPf.wins (730 + sliceOf 0) 1024 (tPf.pfCands (sliceOf 0)) (0, 0) = true ∧
      ((tPf.takeSlot (sliceOf 0) .prefetch).bind (fun x => x.2.pfToken 0)).isSome = true) := by decide +kernel

def tLay (op : BitVec 6) : LbEnt := mkLay 1 op tReq [] false 0x1000 128 .mem

theorem test_hyp_LaybyMerge : ({ Port.init with layby := [tLay opWrFull] } : Port).mergeable (tLay opWrPtl) = true := by
  decide +kernel

def tEnt (op : BitVec 6) (a : Nat) : QEnt := mkEnt 1 op { tReq with addr := BitVec.ofNat 40 a } [] 0 a 4

/-- A queue with one entry at its head. -/
def tHead (e : QEnt) : State := { tUp with queues := [(0, ⟨[e], [mkAns 1 opRdOnce tReq false]⟩)] }

theorem test_hyp_QueueDispatched :
    (let s := tHead { tEnt opRdOnce 0x1000 with busErr := true };
      (s.queue 0).ents = { tEnt opRdOnce 0x1000 with busErr := true } :: [] ∧ s.admits = true) ∧
    (let s := tHead (tEnt opFence 0); s.slotRoom 0 = true ∧ (s.port 0).fence = none ∧ (s.port 0).fenced 1 = false ∧ (tEnt opFence 0).busErr = false) ∧
    (let e := tEnt opRdOnce 0xFFFF800000;
      regionOf e.addr = .control ∧ e.op ≠ opFence ∧ (tHead e).wins 700 1024 (tHead e).controlCands (0, 0) = true) ∧
    (let e := { tEnt opRdOnce 0x2000000000 with peer := some 3 };
      regionOf e.addr = .device ∧ (tHead e).wins (600 + 3) 1024 ((tHead e).targetCands 3) (0, 0) = true) ∧
    (let e := tEnt opRdOnce 0x1000;
      let s := { tHead e with ports := [(0, { Port.init with layby := [{ tLay opWrFull with id := 0 }] })] };
      regionOf e.addr = .memory ∧ (s.tryForward 0).isSome = true) ∧
    (let e := tEnt opRdOnce 0x1000;
      let s := tHead e;
      s.tryForward 0 = none ∧ s.headEligible 0 e = true ∧
      s.wins (0 * 8 + sliceOf (lineOf e.addr)) 512 (s.linkHeads 0 (sliceOf (lineOf e.addr))) (0, 0) = true ∧
      s.wins (200 + sliceOf (lineOf e.addr)) 16 (s.inletLinks (sliceOf (lineOf e.addr))) (0, 0) = true) := by decide +kernel

/-- Port 0 with one lay-by entry. -/
def tLayUp (e : LbEnt) : State := { tUp with ports := [(0, { Port.init with layby := [e], accepted := 1 })] }

theorem test_hyp_LaybyIssued :
    (let e := { tLay opWrPtl with dest := .control, addr := 0xFFFF800000, size := 4 };
      let s := tLayUp e;
      s.live = true ∧ s.layHead 0 = some e ∧ e.ecc = .clean ∧ s.wins 700 1024 s.controlCands (0, 0) = true) ∧
    (let e := { tLay opWrFull with dest := .peer 3 };
      let s := tLayUp e;
      s.layHead 0 = some e ∧ s.wins (600 + 3) 1024 (s.targetCands 3) (0, 0) = true) ∧
    (let e := tLay opWrFull;
      let s := tLayUp e;
      s.layHead 0 = some e ∧ e.dest = .mem ∧ s.layEligible 0 e = true ∧ s.votesOk (s.votedUsed usesHome) = true ∧
      s.saf.safe ≠ .stop ∧ s.wins (300 + 0 * 8 + sliceOf e.line) 64 (s.drainCands 0 (sliceOf e.line)) (0, 0) = true ∧
      s.wins (500 + sliceOf e.line) 16 (s.drainLinks (sliceOf e.line)) (0, 0) = true ∧
      (((((s.granted (300 + 0 * 8 + sliceOf e.line) 64 0).granted (500 + sliceOf e.line) 16 0).setPort 0
        ((s.port 0).issueHead e))).takeSlot (sliceOf e.line) .write).isSome = true) := by decide +kernel

theorem test_hyp_RoundaboutRule :
    rbWinner 16 15 [(3, 0), (0, 1), (0, 0), (14, 0)] = some (0, 0) ∧ (0 < 16 ∧ ∀ c ∈ [(3, 0), (0, 1), (0, 0), (14, 0)], c.1 < 16) ∧
    tUp.tablesWf = true := by decide +kernel

theorem test_hyp_HomeSliceOfAddress :
    sliceOf (lineOf 0x1000) = 1 ∧ sliceOf (lineOf 0x2000) = 2 ∧ sliceOf (lineOf 0x8000) = 1 ∧
    (0x1000 : Addr).toNat / 4096 = (0x1fff : Addr).toNat / 4096 := by decide +kernel

def tAns : Ans := { mkAns 1 opRdOnce tReq false with lo := some ⟨stOk, grI, 0, 0⟩ }

theorem test_hyp_AnswersInOrder :
    (mkAns 1 opRdOnce tReq false).ready = false ∧
    (let s : State := { tUp with queues := [(0, ⟨[], [tAns]⟩)] };
      s.tablesWf = true ∧ (s.queue 0).answers = tAns :: [] ∧ (s.link 0).wbDone = [] ∧ s.bit rIntrRoute 10 = false ∧ tAns.ready = true ∧ s.snoopsFirst 0 tAns.order = false ∧
      (s.link 0).canSend (tAns.msg 0 0) = true ∧ (s.link 0).classClear (tAns.msg 0 0) = true ∧ tAns.status ≠ stPoison ∧
      tAns.status ≠ stBusErr) ∧
    (let s : State := { tUp with ports := [(0, { Port.init with fence := some ⟨2, 0, 0, 0⟩, lossFlag := true })] };
      (s.port 0).fence = some ⟨2, 0, 0, 0⟩ ∧ s.fenceReady 0 2 = true ∧ s.tablesWf = true) ∧
    (let s : State := { tUp with
      ports := [(0, { Port.init with fence := some ⟨2, 0, 0, 0⟩ })], queues := [(0, ⟨[], [mkAns 1 opRdOnce tReq false]⟩)] };
      s.fenceReady 0 2 = false) := by decide +kernel

def tDev (rd : Bool) : DevTag := ⟨5, rd, 0, 0, 1, 0x2000000000, 4, false⟩

def tRsp : Rsp := ⟨0, 0, 5, 0, 0, false, false, 0x2000000000⟩

theorem test_hyp_PeerAccessEnds :
    (∀ rd : Bool, let s := tWith 0 { tLink with devTags := [tDev rd] };
      s.tablesWf = true ∧ (s.link 0).state = .active ∧ tRsp.stream.toNat ≤ (s.link 0).streamCntM1 ∧ tRsp.status.toNat ≤ 5 ∧
      s.devAccess 0 tRsp rd = some (tDev rd) ∧ (tDev rd).timedOut = false ∧
      (s.link 0).devTags.find? (fun x => x.tag == 5 && !x.timedOut) = some (tDev rd) ∧ (s.link 0).txWait = []) ∧
    (let k := { tLink with rxHeld := ⟨0, 0, 63, 142, 0⟩ };
      k.rxHeld.rsp + k.rxFreed.rsp + 1 ≤ 64 ∧ k.rxHeld.dat + k.rxFreed.dat + (1 + 1) ≤ 144) := by decide +kernel

/-- A slot that has snooped CW0 for line 5. -/
def tSnooping : Slot := { tSlot 5 with phase := .gather, snpOp := opSnpShared, snpOut := 1 }

def tSnoop : State := { tUp with
  links := [(0, { tLink with snpTags := [(0, false)] })], home := { Home.init with slots := [(0, some tSnooping)] } }

def tSnpRsp (st : BitVec 2) : Rsp := ⟨0, 0, 0, 0, st, false, false, BitVec.ofNat 40 (lineAddr 5)⟩

theorem test_hyp_SnoopAnswers :
    (tSnoop.link 0).state = .active ∧ tSnoop.snoopSlot 0 (tSnpRsp grS) = some (0, tSnooping) ∧
    stateAllowed tSnooping.snpOp false false grS = true ∧ stateAllowed tSnooping.snpOp false false grM = false ∧
    (∃ t', (tSnoop.snoopClosed 0 0 tSnooping).slot 0 = some t') ∧ tSnoop.slot 0 = some tSnooping ∧
    tSnooping.snpOut.getLsbD 0 = true ∧ tSnoop.home.recovering = [] ∧ stateAllowed opSnpInv false false grI = true :=
  ⟨by decide +kernel, by decide +kernel, by decide +kernel, by decide +kernel,
    ⟨_, by show _ = some ((((tSnoop.snoopClosed 0 0 tSnooping).slot 0)).getD tSnooping); decide +kernel⟩,
    by decide +kernel, by decide +kernel, by decide +kernel, by decide +kernel⟩

def tFill (t : Slot) : State := { tUp with home := { Home.init with slots := [(0, some t)] } }

/-- The same with its command issued at its channel. -/
def tFillCmd (t : Slot) (line : Nat) (write : Bool) : State :=
  let c : DramCmd := ⟨0, line, write, line, 0, write, true⟩
  let ch := if write then { Chan.init with writes := [c] } else { Chan.init with reads := [c] }
  { tFill t with mem := { tUp.mem with chans := [(channelOf line, ch)] } }

theorem test_hyp_FillsReturn :
    (let t := { tSlot 5 with fuse := .reading };
      (tFill t).slot 0 = some t ∧ t.fuse = .reading ∧ (tFill t).votesOk ((tFill t).votedUsed usesHome) = true ∧
      (tFill t).saf.safe ≠ .stop) ∧
    (let t := { tSlot 5 with wrImg := some 1 }; (tFill t).slot 0 = some t ∧ t.wrImg = some 1) ∧
    (let t := { tSlot 5 with dram := .reading };
      (tFillCmd t 5 false).slot 0 = some t ∧ t.dram = .reading ∧ (tFillCmd t 5 false).cmdsIssued 0 5 false = true) ∧
    (let t := { tSlot 5 with victims := [⟨7, 0⟩] };
      (tFillCmd t 7 true).slot 0 = some t ∧
      t.victims.find? (fun v => (tFillCmd t 7 true).cmdsIssued 0 v.line true) = some ⟨7, 0⟩) ∧
    (tSlot 5).fuse ≠ .reading ∧ (tSlot 5).dram ≠ .reading ∧
    burstOutcome { b1 := .uncorrectable, b2 := .uncorrectable, u3 := .uncorrectable } = (0, false, true) ∧
    burstOutcome { b1 := .single, u1 := .single } = (2, false, false) := by decide +kernel

/-! ### Hypotheses of the statements: store, parking, channels and DMA -/

/-- A dirty way of set 0 that holds line 0, and its queued write-back. -/
def tWay : Way := { Way.init with valid := true, hstate := .hd, wdirtyA := true, wdirtyB := true }

def tWb : State := { tUp with wp := { Waypoint.init with ways := [(0, tWay)], wbq := [⟨0, 0, true, false⟩] } }

def gotImg (r : BgRead) (f : FrameImg → State → Bool) : Bool :=
  match r with
  | .got img u => f img u
  | .later _ => false

def tCorr : Correction := ⟨0, 0, 0, false, none⟩

def tFix : State := { tUp with sto := { tUp.sto with corrections := [tCorr] } }

theorem tagParity_empty (s : State) (h : s.wp.ways = []) (g : s.wp.tagOnce = []) (set : Nat) : s.tagParity set = none := by
  have p : Way.init.parity = false := by decide
  have q : Way.init.tpar = false := rfl
  have r : (List.range 16).find? (fun _ => false) = none := by decide
  simp [State.tagParity, State.way, h, g, wayDef, p, q, r]

theorem test_hyp_AgeSweepAndStoreQueues :
    (tUp.live = true ∧ tUp.saf.safe ≠ .stop ∧
      ∀ set, ({ tUp with wp := { tUp.wp with sixteenth := 1 } } : State).tagParity set = none) ∧
    (tWb.live = true ∧ tWb.wp.wbq = ⟨0, 0, true, false⟩ :: [] ∧ (tWb.way 0).valid = true ∧ wayLine 0 (tWb.way 0) = 0 ∧
      (tWb.way 0).dirty = true ∧ tWb.votesOk (tWb.votedUsed usesHome) = true ∧
      ((({ tWb with wp := { tWb.wp with wbq := [] } } : State).takeSlot (sliceOf 0) .maint).isSome = true)) ∧
    (tFix.live = true ∧ tFix.sto.corrections = tCorr :: [] ∧ tFix.frameBusy noSlot 0 = false ∧ tFix.bypassed 0 = false ∧
      tFix.image 0 = tCorr.read ∧ tCorr.verify = false ∧
      tFix.votesOk (tFix.votedUsed usesHome) = true ∧
      gotImg (tFix.bgRead 0 {} false) (fun _ u => u.image 0 == tCorr.read && !(u.bypassed 0)) = true ∧
      (let s : State := { tFix with sto := { tFix.sto with corrections := [{ tCorr with read := 7 }] } };
        s.image 0 ≠ 7 ∧ s.frameBusy noSlot 0 = false) ∧ tUp.sto.corrections = []) :=
  ⟨⟨by decide +kernel, by decide +kernel, fun set => tagParity_empty _ rfl rfl set⟩,
    by decide +kernel, by decide +kernel⟩

theorem test_hyp_LaneShiftMapping :
    (⟨8191, 0, 0, 0⟩ : Lane).start < 8192 ∧ (⟨8191, 8192, 0, 0⟩ : Lane).gap ≤ 8192 ∧
    (⟨8191, 0, 0, 0⟩ : Lane).move = (0, 8192, 0) ∧ (⟨0, 8192, 0, 0⟩ : Lane).move = (8191, 8191, 8192) := by decide +kernel

def tDie : Die := { Die.init with lanes := [(0, ⟨0, 8192, 1, 0⟩)], lsReads := 1, lsWrites := 1, rsReads := 1, rsWrites := 1 }

def tSto (d : Die) (busy : Bool) : State :=
  { tReg tUp rStoCtrl 0x30 with sto := { tUp.sto with dies := [(0, d)], passBusy := busy } }

theorem test_hyp_StoreUpkeep :
    tUp.laneMay 0 0 = false ∧
    (let s := tSto tDie false;
      s.votesOk (s.votedUsed usesHome) = true ∧ s.laneMay 0 0 = true ∧ s.frameBusy noSlot ((0 * 8192 + 8191) * 8 + 0) = false ∧
      ((s.die 0).serve 0 ((s.die 0).pseg 0) 8191).isSome = true ∧
      gotImg (s.bgRead ((0 * 8192 + 8191) * 8 + 0) {} true)
        (fun _ u => ((u.die 0).serve 0 ((s.die 0).pseg 0) 8192).isSome) = true) ∧
    (let s := tSto { tDie with closure := [(0, some (0, 8191))] } false;
      s.laneMay 0 0 = true ∧ (s.die 0).serve 0 ((s.die 0).pseg 0) 8191 = none) ∧
    (let s := tSto { tDie with retireDue := [0] } false;
      s.offline = false ∧ s.live = true ∧ (s.die 0).retire = none ∧ (s.die 0).retireDue = 0 :: [] ∧
      (s.die 0).closed.contains 0 = false ∧ ((s.retireBegin 0 0).die 0).retire = some ⟨0, 0, 512, 0, .init⟩ ∧ 512 ≠ closingSeg) ∧
    tUp.passMay 0 = false ∧
    (let s := tSto { tDie with closed := [0] } true; s.passMay 0 = true ∧ s.bypassed ((s.die 0).passPos * 8 + 0) = true) ∧
    (let s := tSto tDie true;
      s.passMay 0 = true ∧ s.bypassed ((s.die 0).passPos * 8 + 0) = false ∧ (s.die 0).rsReads ≠ 0 ∧ (s.die 0).rsWrites ≠ 0 ∧
      gotImg (s.bgRead ((s.die 0).passPos * 8 + 0) {} true)
        (fun img u => frameEpoch img != nextEpoch u.sto.epoch) = true) := by decide +kernel

def tPark (p : PState) : State := { tUp with prk := { Park.init with slots := [(0, ⟨1, p, 0, [], 0, [], none, false⟩)], size := 1 } }

/-- Line `x` of the region of park slot 0 on its way: its transaction is in home slot 0. -/
def tMove (p : PState) (x : Nat) : State := { tPark p with
  home := { Home.init with slots := [(0, some { Slot.blank .parkMove .self x with agent := 0 })] } }

theorem test_hyp_ParkingMoves :
    (let s := tMove .parking (1 * 16384 + 0);
      s.live = true ∧ s.votesOk (s.votedUsed usesHome) = true ∧ (s.pslot 0).pstate = .parking ∧
      s.moveSlot 0 (1 * 16384 + 0) = some 0 ∧ s.moveSlot 0 (1 * 16384 + 1) = none ∧
      s.prk.slots.find? (fun e => e.2.pstate == .moving && e.2.target == some 0) = none) ∧
    (let s := tMove .parking (1 * 16384 + 0);
      let u : State := { s with prk := { s.prk with slots := s.prk.slots ++ [(1, ⟨1, .moving, 0, [], 0, [], some 0, false⟩)] } };
      u.moveSlot 0 (1 * 16384 + 0) = some 0 ∧
      (u.prk.slots.find? (fun e => e.2.pstate == .moving && e.2.target == some 0)).isSome = true) ∧
    32 ≤ ({ tPark .parking with home := { Home.init with slots := (List.range 32).map (fun k =>
      (k, some { Slot.blank .parkMove .self (16384 + k) with agent := 0 })) } } : State).moves 0 ∧
    (let s := tMove .unparking (1 * 16384 + 16383);
      (s.pslot 0).pstate = .unparking ∧ s.moveSlot 0 (1 * 16384 + 16383) = some 0 ∧
      s.prk.spill.contains (1 * 16384 + 16383) = false ∧
      ({ s with prk := { s.prk with spill := [32767] } } : State).prk.spill.contains (1 * 16384 + 16383) = true) ∧
    (let s : State := { tUp with prk := { Park.init with resize := some 0 } };
      s.live = true ∧ s.prk.resize = some 0 ∧ s.prk.resizeDue = [] ∧ s.slotList = [] ∧ s.resizeLines 0 = []) ∧
    (let s : State := { tUp with cry := { Crypt.init with paving := [3] } };
      s.live = true ∧ s.cry.paving.contains 3 = true) ∧
    tUp.cry.paving.contains 3 = false := by decide +kernel

def tChan (c : Chan) : State := { tUp with mem := { tUp.mem with chans := [(0, c)] } }

theorem test_hyp_ChannelUpkeep :
    (let s := tChan { Chan.init with owed := [(31, 7)], rfmOwed := [(31, 7)] };
      (s.chan 0).pstate = .active ∧ (s.chan 0).retraining = false ∧ s.mem.trained = true ∧ tget zeroDef (s.chan 0).owed 31 < 8 ∧
      tget zeroDef (s.chan 0).ahead 31 = 0 ∧ s.rfmReached 0 31 = false ∧ tget zeroDef (s.chan 0).rfmOwed 31 < 8) ∧
    tget zeroDef ((tChan { Chan.init with owed := [(31, 8)] }).chan 0).owed 31 = 8 ∧
    tget zeroDef ((tChan { Chan.init with ahead := [(31, 8)] }).chan 0).ahead 31 ≠ 0 ∧
    ({ tUp with mem := { tUp.mem with rfm := some 4, chans := [(0, { Chan.init with activates := [(31, 4)] })] } } : State).rfmReached
      0 31 = true ∧
    ((tChan { Chan.init with writes := [⟨0, 0, true, 0, 0, true, false⟩] }).chan 0).writes ≠ [] ∧
    ((tChan { Chan.init with retraining := true }).chan 0).retraining = true ∧
    tget noneDef ((tChan { Chan.init with rows := [(31, some 7)] }).chan 0).rows 31 = some 7 ∧
    (let s := tReg (tChan Chan.init) rMemPwr 0x10001;
      (s.chan 0).pstate = .active ∧ (s.chan 0).idle = true ∧ (s.chan 0).rows = [] ∧ s.fld rMemPwr 0 16 ≠ 0 ∧
      s.fld rMemPwr 16 16 ≠ 0 ∧ tIdle.power.idle = true) ∧
    (let s := tChan { Chan.init with eccTick := 17 }; (s.chan 0).retraining = false ∧ 16 < (s.chan 0).eccTick) ∧
    ((tChan { Chan.init with eccTick := 16 }).chan 0).eccTick ≤ 16 := by decide +kernel

def tDesc (op : BitVec 4) : Desc := ⟨0x100, op, true, false, 7, 128, 0x200000, 0x400000, 0⟩

def tDma (n : Nat) (d : Desc) : State := { tPark .parked with dma := [(n, { DmaCh.init with state := .run, descs := [d] })] }

def tDmaFresh (n : Nat) (d : Desc) : State :=
  { tUp with prk := { Park.init with size := 1 }, dma := [(n, { DmaCh.init with state := .run, descs := [d] })] }

theorem test_hyp_DmaDescriptorStarts :
    (∀ op ∈ [0x0, 0xf, 0x1, 0x2, 0x6, 0x7, 0x8, 0x3, 0x4, 0x5], ∀ n ∈ [0, 47, 48, 63],
      let s := tDmaFresh n (tDesc op);
      (s.dch n).cur = none ∧ (s.dch n).descs = tDesc op :: [] ∧ (s.dch n).state = .run ∧ s.dmaOpen = true ∧
      s.votesOk (s.votedUsed (usesDma n)) = true ∧ (tDesc op).op = op ∧ (tDesc op).length ≠ 0) ∧
    (let d : Desc := { tDesc 1 with length := 0 }; (tDmaFresh 0 d).dmaOpen = true ∧ d.length = 0) ∧
    (tDesc 1).overlaps = false ∧ ({ tDesc 1 with dst := 0x20007f } : Desc).overlaps = true ∧
    (let u := (tDmaFresh 48 (tDesc 4)).dmaTakeDesc 48 (tDesc 4);
      u.parkReason (tDesc 4) = 0 ∧
      u.dmaCheck (u.dch 48).ad.toNat (regionBase ((tDesc 4).src.toNat / 2 ^ 21)) (2 ^ 21) false true = none) ∧
    (let s := tDma 48 (tDesc 5);
      let u := s.dmaTakeDesc 48 (tDesc 5);
      u.unparkReason (tDesc 5) = 0 ∧
      u.dmaCheck (u.dch 48).ad.toNat (regionBase (s.pslot ((tDesc 5).param.toNat % 1024)).region) (2 ^ 21) false true = none) := by
  decide +kernel

def tCh (c : DmaCh) : State := { tUp with dma := [(0, c)] }

theorem test_hyp_DmaDescriptorEnds :
    (let c := (tCh DmaCh.init).dch 0; c.state = .idle ∧ c.fetched = none ∧ c.descs = [] ∧ c.state ≠ .stopping) ∧
    (let s := tCh { DmaCh.init with fetched := some (some 0, 0x160), fetchAddr := 0x160 };
      (s.dch 0).fetched = some (some 0, (s.dch 0).fetchAddr) ∧ (s.dch 0).fetchAddr % 128 / 32 = 3 ∧ s.tablesWf = true) ∧
    (let c := (tCh { DmaCh.init with state := .run, cur := some (tDesc 2), prog := { Prog.init with readBack := 2 } }).dch 0;
      c.cur = some (tDesc 2) ∧ ((tDesc 2).op = 1 ∨ (tDesc 2).op = 2) ∧ c.state.active = true ∧ c.prog.inFlight = 0 ∧
      c.prog.halted = false ∧ c.prog.badReason = 0 ∧ c.prog.readBack = 2) ∧
    (let c := (tCh { DmaCh.init with state := .run, cur := some (tDesc 6), prog := { Prog.init with nextWrite := 1 } }).dch 0;
      c.cur = some (tDesc 6) ∧ c.prog.readBack = 0 ∧ rangeLines (tDesc 6).src.toNat (tDesc 6).length ≤ c.prog.nextWrite) ∧
    (let c := (tCh { DmaCh.init with state := .stopping, cur := some (tDesc 1) }).dch 0;
      (let b := (tCh { DmaCh.init with state := .stopping }).dch 0; b.cur = none ∧ b.state = .stopping ∧ b.fetchBusy = false) ∧
      c.cur = some (tDesc 1) ∧ c.state = .stopping ∧ c.fetchBusy = false ∧ c.prog.inFlight = 0 ∧ c.prog.halted = false ∧
      c.prog.badReason = 0 ∧ c.prog.readBack = 0) := by decide +kernel

theorem test_hyp_DmaControl :
    tUp.power.boot = .run ∧ tUp.saf.safe ≠ .stop ∧ tUp.power.idle = false ∧ (1 : Word).getLsbD 0 = true ∧ tUp.bit (rDmaCtrl 63) 0 = false ∧
    tUp.mgt.shoulder = false ∧ (tUp.dch 63).state = .idle ∧ (tUp.dch 63).shadow = none ∧
    ({ tUp with mgt := { tMgt with shoulder := true } } : State).mgt.shoulder = true ∧
    ((tCh { DmaCh.init with state := .run }).dch 0).state = .run ∧ (0 : Word).getLsbD 31 = false ∧
    (0x80000000 : Word).getLsbD 31 = true := by decide +kernel

/-! ### Hypotheses of the statements: control space, errors, interrupts and counters -/

theorem test_hyp_RegisterWrite :
    tUp.power.boot = .run ∧ tUp.saf.safe ≠ .stop ∧ tUp.power.idle = false ∧ plainOff rPfCtrl = true ∧ plainOff 0 = true ∧
    plainOff 0x80100 = false ∧ plainOff rPrtGctl = false ∧ tUp.tablesWf = true ∧ (∀ o ∈ [0x10, rGlbPwrCtrl], o ≠ rPfCtrl) := by decide +kernel

/-- A voted register whose three copies differ. -/
def tTorn : State := tUp.setReg3 rCryCtrl ⟨1, 2, 4⟩

theorem test_hyp_VotedFields :
    tUp.votesOk (tUp.votedUsed usesDomains) = true ∧
    ((tUp.setReg3 (rAdRdLo 0) ⟨1, 2, 4⟩).votesOk ((tUp.setReg3 (rAdRdLo 0) ⟨1, 2, 4⟩).votedUsed usesDomains) = false ∧
      (tUp.setReg3 (rAdRdLo 0) ⟨1, 2, 4⟩).saf.safe ≠ .stop ∧ (tUp.setReg3 (rAdRdLo 0) ⟨1, 2, 4⟩).tablesWf = true) := by
  decide +kernel

theorem test_hyp_WindowRules :
    (tOpen.power.boot = .run ∧ tOpen.saf.safe ≠ .stop ∧ tOpen.votesOk (tOpen.votedUsed usesConfig) = true ∧
      tOpen.power.idle = false ∧ tOpen.tablesWf = true ∧ tOpen.winValid 0 = true ∧
      (0x7fffffff : Word).getLsbD 31 = false ∧ (0x80000001 : Word).getLsbD 31 = true ∧
      (tOpen.writeReg 0x80100 0x80000001).reg 0x80100 ≠ tOpen.reg 0x80100) ∧
    (tUp.winValid 63 = false ∧ (tUp.writeReg (0x80100 + 63 * 16) 5).winValid 63 = false ∧
      (let s := tReg tUp (rWinLimit 63) 5;
        (s.writeReg (rWinBase 63) 0x80000005).winValid 63 = true ∧ (s.writeReg (rWinBase 63) 0x80000005).winOk 63 = true ∧
        (s.writeReg (rWinBase 63) 0x80000006).winValid 63 = true ∧ (s.writeReg (rWinBase 63) 0x80000006).winOk 63 = false)) := by
  decide +kernel

/-- What KS_EN_WRITE writes. -/
def ksWord (s : State) (v : Word) : Word := pack ((List.range 16).map (fun k => (k, flag (s.ksNext v k))))

def tKeyed : State := { tUp with cry := { Crypt.init with keys := [(15, some zeroKeys)] } }

theorem test_hyp_KeySlotRules_ksEn :
    tKeyed.power.boot = .run ∧ tKeyed.saf.safe ≠ .stop ∧ tKeyed.votesOk (tKeyed.votedUsed usesConfig) = true ∧
    tKeyed.power.idle = false ∧ ksWord tKeyed 0x8001 = 0x8001 &&& 0xffff ∧
    ksWord tKeyed 0x4001 ≠ 0x4001 &&& 0xffff ∧ ksWord tKeyed 0 ≠ 0 &&& 0xffff ∧ (0x8001 : Word).getLsbD 15 = true ∧
    (0x8001 : Word).getLsbD 14 = false := by decide +kernel

def tCounting : State := tReg tUp (rCntCfg 63) 0xaf

theorem test_hyp_CounterWrites :
    tUp.power.boot = .run ∧ tUp.saf.safe ≠ .stop ∧ tUp.power.idle = false ∧ tUp.tablesWf = true ∧ (tReg tUp rCntGctl 1).bit rCntGctl 0 = true ∧
    (let s := tReg tUp (rCntCfg 63) ((layout (rCntCfg 63)).reset ||| 0xaf);
      s.tablesWf = true ∧ s.bit rCntGctl 0 = false ∧ cntListed s = [63] ∧ s.fld (rCntCfg 63) 0 7 = 0x2f ∧
      cntPasses s 63 {} = true ∧ (s.cnt 63).value.toNat + 1 < 2 ^ 48) := by decide +kernel

theorem test_hyp_MaintenanceByRegister :
    (∀ op ∈ [1, 2, 3, 4, 5, 8, 9, 10], field (BitVec.ofNat 32 (0x80000000 + op)) 0 4 = op ∧
      (BitVec.ofNat 32 (0x80000000 + op)).getLsbD 31 = true) ∧
    tUp.power.boot = .run ∧ tUp.saf.safe ≠ .stop ∧ tUp.power.idle = false ∧ tUp.wp.maintBusy = false ∧ (1 : Word).getLsbD 31 = false ∧
    ({ tUp with wp := { Waypoint.init with maintBusy := true } } : State).wp.maintBusy = true ∧ tUp.wp.maintWait = none ∧
    (tUp.way (wayKey (field 0x800f0008 4 12) (field 0x800f0008 16 4))).valid = false ∧
    (tReg (tReg tUp rMaintLo 0) rMaintHi 0x1f).memBytes ≤ (tReg (tReg tUp rMaintLo 0) rMaintHi 0x1f).maintAddr := by
  decide +kernel

theorem test_hyp_TestFramesAndParkRegisters :
    (tUp.power.boot = .run ∧ tUp.saf.safe ≠ .stop ∧ tUp.power.idle = false ∧ (0x80000000 : Word).getLsbD 31 = true ∧
      (tUp.writeReg rTestCtrl 0x80000000).bit rTestCtrl 9 = false ∧ (tUp.writeReg rTestCtrl 0x80000200).bit rTestCtrl 9 = true) ∧
    ((tPark .parked).prk.resize = none ∧ (tPark .parked).shrinkRefused (min 8 (field 0 0 4)) = true ∧
      (tPark .free).shrinkRefused (min 8 (field 1 0 4)) = false ∧ min 8 (field 1 0 4) = (tPark .free).prk.size ∧
      tUp.shrinkRefused (min 8 (field 15 0 4)) = false ∧ min 8 (field 15 0 4) ≠ tUp.prk.size) ∧
    (tUp.prk.vacBusy = false ∧ (tUp.writeReg rVacCmd 0x80020001).vacRefused ((tUp.writeReg rVacCmd 0x80020001).fld rVacBase 0 16) 1 = 0 ∧
      (0x80020001 : Word).getLsbD 17 = true ∧ (0x80000001 : Word).getLsbD 17 = false ∧
      (tUp.writeReg rVacCmd 0x80000001).vacRefused 0 1 = 0 ∧ (tUp.writeReg rVacCmd 0x80000001).vacRefused 0xffff 1 ≠ 0) ∧
    ((tPark .lost).pslot (field 0x80000000 0 10)).pstate = .lost := by decide +kernel

set_option maxRecDepth 10000 in
/-- Three inverted bits are more than a test read corrects (R189, R212). -/
theorem test_hyp_TestFrames_uncorrectable :
    bchErrors (tget frameDef (tUp.writeReg rTestCtrl 0x80000200).sto.frames (testKey 0 0) ^^^ 7) = none := by decide +kernel

theorem test_hyp_MailboxFifos :
    tUp.power.boot = .run ∧ tUp.saf.safe ≠ .stop ∧ tUp.power.idle = false ∧ tUp.power.replyOut ≠ some .host ∧ ({ tMgt with overflow := true } : Mgt).overflow = true ∧
    tUp.mgt.overflow = false ∧ 128 ≤ ({ tMgt with cmdFifo := List.replicate 128 0 } : Mgt).cmdFifo.length ∧
    packetWhole ([1] ++ [0]) = true ∧ packetWhole ([] ++ [1]) = false ∧ tUp.mgt.cmdFifo.length < 128 ∧
    tUp.mgt.readers = [] ∧ tUp.power.replyPath = none ∧ (0 : Word).getLsbD 0 = false ∧
    ({ tMgt with replyFifo := [3] } : Mgt).replyFifo = 3 :: [] ∧ tUp.mgt.replyFifo = [] ∧ tUp.mgt.owedHost = 0 ∧
    ({ tMgt with owedHost := 1 } : Mgt).owedHost ≠ 0 ∧ ({ tMgt with evtFifo := [(1, 2)] } : Mgt).evtFifo = (1, 2) :: [] ∧
    tUp.mgt.evtFifo = [] := by decide +kernel

def tLog (k : Cls) : LogEnt := ⟨0, 0, 1, 2, k, true, 0, 0, 0, false⟩

theorem length_rep (e : LogEnt) (n : Nat) : (List.replicate n e).length = n := List.length_replicate

theorem test_hyp_ErrorLogKeepsNewest :
    (List.replicate 1023 (tLog .p)).length < 1024 ∧ ([tLog .p] ++ tLog .c :: List.replicate 1022 (tLog .d)).length = 1024 ∧
    (∀ y ∈ [tLog .p], y.cls ≠ .c ∧ y.cls ≠ .info) ∧ (tLog .p :: List.replicate 1023 (tLog .d)).length = 1024 ∧
    (∀ y ∈ tLog .p :: List.replicate 1023 (tLog .d), y.cls ≠ .c ∧ y.cls ≠ .info) := by
  refine ⟨?_, ?_, by decide, ?_, ?_⟩
  · rw [length_rep]; decide
  · simp only [List.length_append, List.length_cons, length_rep]; rfl
  · rw [List.length_cons, length_rep]
  · intro y h
    rcases List.mem_cons.1 h with rfl | h
    · decide
    · rw [List.eq_of_mem_replicate h]; decide

theorem test_hyp_InterruptsAndReports :
    tUp.tablesWf = true ∧ 9 < 10 ∧ tUp.bit rIntrPend 9 = false ∧ (tReg tUp rIntrPend 0x200).bit rIntrPend 9 = true := by
  decide +kernel

/-! ### Hypotheses of the statements: Signpost and I3C -/

theorem bytes_back (l : List Nat) (h : ∀ x ∈ l, x < 256) : (l.map (BitVec.ofNat 8)).map BitVec.toNat = l := by
  induction l with
  | nil => rfl
  | cons a r ih =>
    have ha : a < 256 := h a (by simp)
    simp only [List.map_cons, ih (fun x hx => h x (by simp [hx])), BitVec.toNat_ofNat]
    rw [Nat.mod_eq_of_lt (by omega)]

theorem natBytes_lt (n v : Nat) : ∀ x ∈ natBytes n v, x < 256 := by
  induction n generalizing v with
  | zero => intro x hx; cases hx
  | succ n ih =>
    intro x hx
    simp only [natBytes, List.mem_cons] at hx
    rcases hx with rfl | hx
    · omega
    · exact ih _ x hx

theorem hmac256_lt (k : Key) (m : List Nat) : ∀ x ∈ hmac256 k m, x < 256 := by
  intro x hx
  simp only [hmac256, sha256, List.map_cons, List.map_nil, List.flatten_cons, List.flatten_nil, List.mem_append, beBytes,
    List.mem_reverse] at hx
  rcases hx with h | h | h | h | h | h | h | h | h
  all_goals first | exact natBytes_lt _ _ x h | cases h

theorem natBytes_length (n v : Nat) : (natBytes n v).length = n := by
  induction n generalizing v with
  | zero => rfl
  | succ n ih => simp [natBytes, ih]

theorem hmac256_length (k : Key) (m : List Nat) : (hmac256 k m).length = 32 := by
  simp [hmac256, sha256, beBytes, natBytes_length]

/-- A running device with one packet on the I3C path. -/
def tPacket (s : State) (pkt : List Nat) (x : Option Session) (ch : Option Challenge) : State :=
  { s with mgt := { s.mgt with i3cp := { PathSt.init with
    packets := [pkt.map (BitVec.ofNat 8)], badLen := [false], session := x, challenge := ch } } }

/-- The packet of a command without and with a trailer. -/
def plainPacket (op : Nat) (b : List Nat) : List Nat := headBytes op 1 b.length 0 ++ b

def signed (k : Key) (op : Nat) (b : List Nat) : List Nat := (hmac256 k (headBytes op 1 (b.length + 8) 1 ++ b)).take 8

def authPacket (k : Key) (op : Nat) (b : List Nat) : List Nat := headBytes op 1 (b.length + 8) 1 ++ (b ++ signed k op b)

theorem head_eq (op seq len fl : Nat) : headBytes op seq len fl =
    [op % 256, op / 256 % 256, seq % 256, seq / 256 % 256, len % 256, len / 256 % 256, fl % 256, fl / 256 % 256] := rfl

theorem cmd_eq (op len fl : Nat) (r : List Nat) (h1 : op < 256) (h2 : len < 256) (h3 : fl < 256) :
    Cmd.ofBytes .i3c false (headBytes op 1 len fl ++ r) = ⟨.i3c, op, 1, len, fl, r, false⟩ := by
  simp only [head_eq, Cmd.ofBytes, leNat, List.cons_append, List.nil_append, List.drop, List.take, bytesNat, Cmd.mk.injEq,
    true_and, and_true]
  omega

theorem next_of (s : State) (op len fl : Nat) (r : List Nat) (x : Option Session) (ch : Option Challenge) (h1 : op < 256)
    (h2 : len < 256) (h3 : fl < 256) (hr : ∀ y ∈ r, y < 256) :
    (tPacket s (headBytes op 1 len fl ++ r) x ch).nextCmd .i3c = some ⟨.i3c, op, 1, len, fl, r, false⟩ := by
  have hb : ∀ y ∈ headBytes op 1 len fl ++ r, y < 256 := by
    intro y hy
    rcases List.mem_append.1 hy with h | h
    · simp only [head_eq, List.mem_cons, List.not_mem_nil, or_false] at h; omega
    · exact hr y h
  show some (Cmd.ofBytes .i3c false _) = _
  rw [bytes_back _ hb, cmd_eq op len fl r h1 h2 h3]

/-- The length of a command's parameters is one that its row allows, and the row needs level `n` at most. -/
def rowOk (op n : Nat) (b : List Nat) : Bool :=
  match opRow op with
  | some r => decide (r.minLen ≤ b.length) && decide (b.length ≤ r.maxLen) && decide (r.level ≤ n) && decide (op < 256)
      && decide (b.length ≤ 240)
  | none => false

/-- The device serves the I3C path in Normal. -/
def ready (s : State) : Bool :=
  !s.power.idle && s.power.replyPath == none && s.power.boot == .run && s.saf.safe == .normal && s.saf.marker && !s.mgt.shoulder

theorem ready_iff (s : State) : ready s = true ↔ s.power.idle = false ∧ s.power.replyPath = none ∧ s.power.boot = .run ∧
    s.saf.safe = .normal ∧ s.saf.marker = true ∧ s.mgt.shoulder = false := by
  simp [ready, and_assoc]

theorem packet_serves (s : State) (pkt : List Nat) (x : Option Session) (ch : Option Challenge) (h : ready s = true) :
    (tPacket s pkt x ch).serves .i3c = true := by
  obtain ⟨_, h2, h3, h4, h5, _⟩ := (ready_iff s).1 h
  have e1 : (tPacket s pkt x ch).power = s.power := rfl
  have e2 : (tPacket s pkt x ch).saf = s.saf := rfl
  have e3 : (tPacket s pkt x ch).mgt.i3cp.reply = none := rfl
  simp [State.serves, State.atWork, State.shutOver, e1, e2, e3, h2, h3, h5, Boot.clocked]

theorem plain_accepts (s : State) (op : Nat) (b : List Nat) (ch : Option Challenge) (hs : ready s = true)
    (hb : ∀ y ∈ b, y < 256) (h : rowOk op 0 b = true) :
    ∃ c, (tPacket s (plainPacket op b) none ch).accepts .i3c c none
        ((tPacket s (plainPacket op b) none ch).dropCmd .i3c) ∧ c.opcode = op ∧ c.params = b := by
  obtain ⟨hi, _, hp, hf, _, hm⟩ := (ready_iff s).1 hs
  unfold rowOk at h
  cases hr : opRow op with
  | none => simp [hr] at h
  | some r =>
    simp only [hr, Bool.and_eq_true, decide_eq_true_eq] at h
    obtain ⟨⟨⟨⟨h1, h2⟩, h3⟩, h4⟩, h5⟩ := h
    refine ⟨⟨.i3c, op, 1, b.length, 0, b, false⟩, ⟨hi, next_of _ op b.length 0 b none ch h4 (by omega) (by omega) hb,
      packet_serves s _ _ _ hs, ?_, 0, rfl, ?_⟩, rfl, by simp [Cmd.params, Cmd.auth]⟩
    · have e1 : ((tPacket s (plainPacket op b) none ch).dropCmd .i3c).mgt.shoulder = false := hm
      have e2 : ((tPacket s (plainPacket op b) none ch).dropCmd .i3c).power.boot = .run := hp
      have e3 : ((tPacket s (plainPacket op b) none ch).dropCmd .i3c).saf.safe = .normal := hf
      simp [State.preCheck, hr, e1, e2, e3, Cmd.auth]
      rw [if_neg (by omega), if_neg (by omega)]
    · simp [opLevel, hr]; omega

def tSession (k : Key) : Session := ⟨2, k, none, 0, 0⟩

/-- `s` with the session of a command that was accepted in it. -/
def accepted (k : Key) (s : State) : State :=
  { s with mgt := { s.mgt with i3cp := { PathSt.init with session := some { tSession k with lastSeq := some 1 } } } }

theorem session_accepts (s : State) (k : Key) (op : Nat) (b : List Nat) (hs : ready s = true) (hb : ∀ y ∈ b, y < 256)
    (h : rowOk op 2 b = true) :
    ∃ c, (tPacket s (authPacket k op b) (some (tSession k)) none).accepts .i3c c (some k) (accepted k s) ∧ c.opcode = op ∧
      c.params = b := by
  obtain ⟨hi, _, hpw, hf, _, hm⟩ := (ready_iff s).1 hs
  unfold rowOk at h
  cases hr : opRow op with
  | none => simp [hr] at h
  | some r =>
    simp only [hr, Bool.and_eq_true, decide_eq_true_eq] at h
    obtain ⟨⟨⟨⟨h1, h2⟩, h3⟩, h4⟩, h5⟩ := h
    have hl : (signed k op b).length = 8 := by simp [signed, hmac256_length]
    have hp : (⟨.i3c, op, 1, b.length + 8, 1, b ++ signed k op b, false⟩ : Cmd).params = b := by simp [Cmd.params, Cmd.auth]
    have ht : (⟨.i3c, op, 1, b.length + 8, 1, b ++ signed k op b, false⟩ : Cmd).trailerOk k = true := by
      simp only [Cmd.trailerOk, hp, Nat.add_sub_cancel, List.drop_left, beq_iff_eq]
      rw [List.take_of_length_le (l := signed k op b) (by omega)]
      rfl
    have hn : ∀ y ∈ b ++ signed k op b, y < 256 := by
      intro y hy
      rcases List.mem_append.1 hy with h | h
      · exact hb y h
      · exact hmac256_lt _ _ y (List.mem_of_mem_take h)
    refine ⟨⟨.i3c, op, 1, b.length + 8, 1, b ++ signed k op b, false⟩, ⟨hi,
      next_of _ op (b.length + 8) 1 _ (some (tSession k)) none h4 (by omega) (by omega) hn, packet_serves s _ _ _ hs, ?_,
      2, ?_, ?_⟩, rfl, hp⟩
    · have e1 : ((tPacket s (authPacket k op b) (some (tSession k)) none).dropCmd .i3c).mgt.shoulder = false := hm
      have e2 : ((tPacket s (authPacket k op b) (some (tSession k)) none).dropCmd .i3c).power.boot = .run := hpw
      have e3 : ((tPacket s (authPacket k op b) (some (tSession k)) none).dropCmd .i3c).saf.safe = .normal := hf
      simp [State.preCheck, hr, e1, e2, e3, Cmd.auth]
      rw [if_neg (by omega), if_neg (by omega)]
    · show State.authenticate _ _ = _
      unfold State.authenticate
      have hx : (((tPacket s (authPacket k op b) (some (tSession k)) none).dropCmd .i3c).pathSt .i3c).session
        = some (tSession k) := rfl
      simp only [hx]
      have ht' : (⟨.i3c, op, 1, b.length + 8, 1, b ++ signed k op b, false⟩ : Cmd).trailerOk (tSession k).key = true := ht
      simp only [ht']
      rfl
    · simp [opLevel, hr]; omega

/-- With these parameters every reading command of level 0 is accepted (by `plain_accepts`) and its parameters are in range. -/
theorem test_hyp_SignpostReads :
    ready tUp = true ∧
    (∀ x ∈ [(0x01, []), (0x02, []), (0x03, []), (0x04, [1, 2]), (0x20, [0, 22]), (0x30, [0xff, 3, 7, 0]), (0x60, [2, 5, 0, 0]),
      (0x61, [0, 15, 0, 0]), (0x74, []), (0x80, [7, 0, 0x0f, 2]), (0x81, [0xe2, 3, 30, 0]), (0x90, []), (0x14, [])],
      rowOk x.1 0 x.2 = true ∧ ∀ y ∈ x.2, y < 256) ∧
    (1 ≤ 22 ∧ 0 + 22 ≤ 22) ∧ leNat [0xff, 3, 7, 0] 0 2 = 1023 ∧ factoryIndexOk 2 5 = true ∧ zeroAt [2, 5, 0, 0] 2 2 = true ∧
    trimIndexOk 0 15 = true ∧ leNat [7, 0, 0x0f, 2] 2 2 = 527 ∧ leNat [0xe2, 3, 30, 0] 0 2 + 30 = 1024 ∧
    ((accepted 5 tUp).pathSt .i3c).session.isSome = true := by decide +kernel

def tChal : Challenge := ⟨1, 7, 9⟩

def tMgtOf (f : Mgt → Mgt) : State := { tUp with mgt := f tMgt }

def tKeyState : State := tMgtOf (fun m => { m with opKey := some 5 })

theorem answer_lt (ch : Challenge) (k : Key) (p : Path) : ∀ y ∈ ch.answer k p, y < 256 := hmac256_lt _ _

theorem test_hyp_Tollgate_right :
    ∃ c, (tPacket tKeyState (plainPacket 0x11 (tChal.answer 5 .i3c)) none (some tChal)).accepts .i3c c none
        ((tPacket tKeyState (plainPacket 0x11 (tChal.answer 5 .i3c)) none (some tChal)).dropCmd .i3c) ∧
      c.opcode = 0x11 ∧ tChal.answer 5 .i3c = c.params := by
  obtain ⟨c, h1, h2, h3⟩ := plain_accepts tKeyState 0x11 (tChal.answer 5 .i3c) (some tChal) (by decide) (answer_lt _ _ _)
    (by
      have hl : (tChal.answer 5 .i3c).length = 32 := hmac256_length _ _
      have hr : opRow 0x11 = some ⟨0x11, 0, true, 32, 32⟩ := by decide
      simp only [rowOk, hr, hl]; decide)
  exact ⟨c, h1, h2, h3.symm⟩

/-- Of two different answers one is wrong, whatever the unique ID is. -/
theorem test_hyp_Tollgate_wrong :
    tChal.answer 5 .i3c ≠ List.replicate 32 0 ∨ tChal.answer 5 .i3c ≠ List.replicate 32 1 := by
  by_cases h : tChal.answer 5 .i3c = List.replicate 32 0
  · right; rw [h]; decide
  · exact .inl h

theorem test_hyp_Tollgate :
    ready tKeyState = true ∧ rowOk 0x11 0 (List.replicate 32 1) = true ∧
    (rowOk 0x10 0 ([1, 0, 0, 0] ++ List.replicate 16 0xff) = true ∧ zeroAt ([1, 0, 0, 0] ++ List.replicate 16 0xff) 1 3 = true ∧
      tKeyState.levelKey 1 = some 5 ∧ (tKeyState.pathSt .i3c).lockout.any (· < 1000) = false ∧
      ({ PathSt.init with lockout := some 999 } : PathSt).lockout.any (· < 1000) = true) ∧
    rowOk 0x12 2 [] = true ∧
    (rowOk 0x13 0 ([2, 0, 0, 0] ++ List.replicate 32 7) = true ∧ zeroAt ([2, 0, 0, 0] ++ List.replicate 32 7) 1 3 = true ∧
      tKeyState.mgt.ownKey = none) ∧
    ({ tSession 5 with idle := 60000 } : Session).idle ≥ 60000 ∧ ({ tSession 5 with idle := 59999 } : Session).idle < 60000 := by
  decide +kernel

/-- PROVISION on the host path. -/
def tHost : State := { tUp with mgt := { tMgt with
  cmdFifo := packWords (plainPacket 0x13 ([2, 0, 0, 0] ++ List.replicate 32 7)), owedHost := 1 } }

def tHostCmd : Cmd := ⟨.host, 0x13, 1, 36, 0, [2, 0, 0, 0] ++ List.replicate 32 7, false⟩

theorem test_hyp_Tollgate_host : tHost.accepts .host tHostCmd none (tHost.dropCmd .host) :=
  ⟨by decide, by decide +kernel, by decide +kernel, by decide +kernel, 0, rfl, by decide⟩

theorem test_hyp_AuthenticationNeeded :
    ∃ c, (tPacket tUp (authPacket 5 0x31 []) (some (tSession 5)) none).accepts .i3c c (some 5) (accepted 5 tUp) ∧
      c.opcode = 0x31 ∧ c.params = [] := session_accepts tUp 5 0x31 [] (by decide) (by decide) (by decide)

/-- A trailer of zeros under key 5 does not verify. -/
theorem test_hyp_AuthenticationNeeded_bad :
    (⟨.i3c, 0x31, 1, 8, 1, List.replicate 8 0, false⟩ : Cmd).trailerOk 5 = false ∧
    (⟨.i3c, 0x31, 1, 8, 1, List.replicate 8 0, false⟩ : Cmd).auth = true ∧ 2 ≤ ({ tSession 5 with fails := 2 } : Session).fails := by
  decide +kernel

def tIgnored (op : Nat) (b : List Nat) : State := tPacket tUp (plainPacket op b) none none

theorem test_hyp_SignpostRefuses :
    (∃ c, (tIgnored 0xff []).nextCmd .i3c = some c ∧ (tIgnored 0xff []).serves .i3c = true ∧ c.bad = false ∧ c.length ≤ 248 ∧
      c.flags < 2 ∧ opRow c.opcode = none) ∧
    (∃ c, (tIgnored 0x04 (List.replicate 249 0)).nextCmd .i3c = some c ∧
      ((tIgnored 0x04 (List.replicate 249 0)).dropCmd .i3c).preCheck c = some sBadLength ∧ c.opcode = 0x04) ∧
    (∃ c, (tIgnored 0x31 []).nextCmd .i3c = some c ∧ c.opcode = 0x31 ∧ ((tIgnored 0x31 []).dropCmd .i3c).preCheck c = none ∧
      c.auth = false ∧ c.opcode ≠ 0x04) :=
  ⟨⟨⟨.i3c, 0xff, 1, 0, 0, [], false⟩, by decide +kernel, by decide +kernel, by decide +kernel, by decide +kernel, by decide +kernel, by decide +kernel⟩,
    ⟨⟨.i3c, 0x04, 1, 249, 0, List.replicate 249 0, false⟩, by decide +kernel, by decide +kernel, by decide +kernel⟩,
    ⟨⟨.i3c, 0x31, 1, 0, 0, [], false⟩, by decide +kernel, by decide +kernel, by decide +kernel, by decide +kernel, by decide +kernel⟩⟩

theorem test_hyp_PendingReply :
    tHost.live = true ∧ tHost.mgt.owedHost ≠ 0 ∧ tHost.mgt.replyFifo.length + 2 ≤ 128 ∧ tHost.mgt.late = none ∧
    tHost.nextCmd .host = some tHostCmd := by decide +kernel

def tUpdate : Update := ⟨1, 6, []⟩

/-- A firmware update under way in slot B: DATA at its last bytes, COMMIT with the image valid or not as Config says. -/
theorem test_hyp_SignpostWrites_firmware :
    ready (tMgtOf (fun m => { m with update := some tUpdate })) = true ∧ rowOk 0x40 2 [0, 0, 0x20, 0] = true ∧
    leNat [0, 0, 0x20, 0] 0 4 = 2097152 ∧ tUp.mgt.running = 0 ∧ rowOk 0x41 2 [4, 0, 0, 0, 1, 2] = true ∧
    leNat [4, 0, 0, 0, 1, 2] 0 4 + 2 ≤ tUpdate.size ∧ rowOk 0x42 2 [] = true ∧ tUpdate.slot = 1 ∧
    (fwOk (some tUpdate.image) = true ∨ fwOk (some tUpdate.image) = false) ∧ rowOk 0x43 2 [1, 0, 0, 0] = true ∧
    zeroAt [1, 0, 0, 0] 1 3 = true :=
  ⟨by decide +kernel, by decide +kernel, by decide +kernel, by decide +kernel, by decide +kernel, by decide +kernel,
    by decide +kernel, by decide +kernel, by cases fwOk (some tUpdate.image) <;> simp, by decide +kernel, by decide +kernel⟩

/-- KEY_LOAD of slot 15 with any 104 bytes that unwrap under the wrapping key (an OTP constant, log entry 6) is accepted. -/
theorem test_hyp_SignpostWrites_keyLoad (w : List Nat) (h : w.length = 104) (hb : ∀ y ∈ w, y < 256) :
    ∃ c, (tPacket tUp (authPacket 5 0x50 ([15, 0, 0, 0] ++ w)) (some (tSession 5)) none).accepts .i3c c (some 5) (accepted 5 tUp) ∧
      c.opcode = 0x50 ∧ c.params = [15, 0, 0, 0] ++ w ∧ (accepted 5 tUp).ksEnabled 15 = false := by
  obtain ⟨c, h1, h2, h3⟩ := session_accepts tUp 5 0x50 ([15, 0, 0, 0] ++ w) (by decide)
    (by
      intro y hy
      rcases List.mem_append.1 hy with h | h
      · simp only [List.mem_cons, List.not_mem_nil, or_false] at h; omega
      · exact hb y h)
    (by
      have hr : opRow 0x50 = some ⟨0x50, 2, false, 108, 108⟩ := by decide
      simp [rowOk, hr, h])
  exact ⟨c, h1, h2, h3, by decide +kernel⟩

theorem test_hyp_SignpostWrites :
    rowOk 0x51 2 [15, 0, 0, 0] = true ∧ rowOk 0x52 2 [] = true ∧ tUp.ksEnabled 1 = false ∧ tUp.ksEnabled 15 = false ∧
    (rowOk 0x62 2 [0, 15, 0, 0, 2, 0, 0, 0] = true ∧ trimIndexOk 0 15 = true ∧ zeroAt [0, 15, 0, 0, 2, 0, 0, 0] 2 2 = true ∧
      (BitVec.ofNat 32 (leNat [0, 15, 0, 0, 2, 0, 0, 0] 4 4)).toInt = trimMax 0) ∧
    (rowOk 0x73 2 [0xb8, 0x0b, 0, 0] = true ∧ leNat [0xb8, 0x0b, 0, 0] 0 2 = 3000 ∧ leNat [0xf8, 0x2a, 0, 0] 0 2 = 11000 ∧
      zeroAt [0xf8, 0x2a, 0, 0] 2 2 = true) ∧
    rowOk 0x31 2 [] = true ∧ rowOk 0x91 2 [30, 0, 0, 0] = true ∧ zeroAt [30, 0, 0, 0] 1 3 = true := by decide +kernel

/-- For KeySlotRules: slot 15 enabled, slot 1 not. -/
theorem test_hyp_KeySlotRules_load :
    (let s := tReg tKeyed rCryCtrl 0x8001;
      ready s = true ∧ s.ksEnabled 15 = true ∧ s.ksEnabled 1 = false ∧ rowOk 0x50 2 ([15, 0, 0, 0] ++ List.replicate 104 0) = true ∧
      rowOk 0x51 2 [15, 0, 0, 0] = true ∧ zeroAt [15, 0, 0, 0] 1 3 = true) := by decide +kernel

theorem test_hyp_StopCommands :
    (ready tBusy = true ∧ rowOk 0x70 2 [] = true ∧ rowOk 0x71 2 [] = true ∧ rowOk 0x72 2 [] = true ∧
      (accepted 5 tBusy).power.boot = .run ∧ tBusy.power.boot = .run ∧
      ((accepted 5 tBusy).stopAdmission .shutdown).stopReady = false ∧
      ((accepted 5 tBusy).stopAdmission .standbyEntry).stopReady = false) ∧
    (let s := tPow (tMgtOf (fun m => { m with late := some ⟨0x71, 1, none⟩ })) (fun p => { p with
        boot := .shutdown, replyPath := some .i3c });
      s.power.replyPath = some .i3c ∧ s.atWork = true ∧ s.lateRoom .i3c = true ∧ s.mgt.late = some ⟨0x71, 1, none⟩ ∧ s.stopReady = true ∧ s.power.boot = .shutdown) := by
  decide +kernel

def tI3c (f : I3c → I3c) : State := tMgtOf (fun m => { m with i3c := f m.i3c })

theorem test_hyp_I3cTarget :
    (tUp.shutOver = false ∧ tUp.power.replyOut ≠ some .i3c ∧ tUp.power.boot.i3cUp = true ∧ tUp.mgt.i3c.hdr = false ∧ tUp.power.idle = false ∧ tUp.power.boot ≠ .standby ∧
      tUp.i3cOwed = false ∧ tUp.mgt.i3cp.reply = none ∧ (List.replicate 256 (0 : BitVec 8)).length ≤ 256) ∧
    (tIgnored 0x01 []).i3cOwed = true ∧
    (tMgtOf (fun m => { m with i3cp := { PathSt.init with reply := some [1] } })).mgt.i3cp.reply = some [1] ∧
    (tI3c (fun i => { i with hdr := true })).mgt.i3c.hdr = true ∧ tUp.mgt.i3c.dynAddr = none ∧
    (tI3c (fun i => { i with dynAddr := some 8 })).mgt.i3c.dynAddr = some 8 ∧ (1 : BitVec 8).getLsbD 0 = true ∧
    (0x7e : BitVec 7) ≠ BitVec.ofNat 7 (0x4C + tUp.power.straps.i3ca.toNat) := by decide +kernel

/-! ### Values of the manual: addresses, mapping and single commands -/

/-- 02_causeway_links, worked example: CW3, stream 5, TC 2 is port 197 and queue 1,578. -/
theorem test_port_and_queue : queueOf (3 * 64 + 5) 2 = 1578 := by decide

/-- 06_cache_organization, worked example: the derivations for 0x03_E8A1_2C00 with P = 2. -/
theorem test_address_derivations :
    let a : Addr := 0x03E8A12C00
    lineOf a = 0x7D14258 ∧ cacheFrames 2 = 0x1C00000 ∧ frameOf 2 (lineOf a) = (0xD14258, 0x23) ∧ dieOf 0xD14258 = 0 ∧
    dieFrame 0xD14258 = 0x1A284B ∧ wpSet (lineOf a) = 0xF4C ∧ wpTag (lineOf a) = 0x7D14 ∧ regionNo (lineOf a) = 0x3E8A12 ∧
    sliceOf (lineOf a) = 6 ∧ filterSet 0x3E8A12 = 0x12 ∧ filterTag 0x3E8A12 = 0x3E8A ∧
    lineAddr (lineOfFrame 0xD14258 0x03) = 0x0368A12C00 := by decide +kernel

/-- 09_main_memory, worked example: the channel, row and bank of the same address, and of its victim. -/
theorem test_dram_mapping :
    channelOf (0x03E8A12C00 / 128) = 11 ∧ localLine (0x03E8A12C00 / 128) = 0x7D1425 ∧
    rowOf false (0x03E8A12C00 / 128) = 0x7D14 ∧ bankOf false (0x03E8A12C00 / 128) = 6 ∧
    channelOf (0x0368A12C00 / 128) = 11 ∧ rowOf false (0x0368A12C00 / 128) = 0x6D14 ∧ bankOf false (0x0368A12C00 / 128) = 6 := by
  decide +kernel

/-- 07_store_integrity_wear, worked example: start 100, gap 2,200, frame 2,123 in slot 2,224; the move takes frame 2,099. -/
theorem test_lane_shift_example :
    laneSlot ⟨100, 2200, 1, 0⟩ 2123 = 2224 ∧ (⟨100, 2200, 1, 0⟩ : Lane).move = (2099, 2199, 2200) ∧
    laneSlot (⟨100, 2200, 1, 0⟩ : Lane).after 2099 = 2200 ∧ laneSlot (⟨100, 2200, 1, 0⟩ : Lane).after 2123 = 2224 := by
  decide +kernel

/-- 08_parking_persistence, worked example: slot 3 holds frames 0x1FF_0000 to 0x1FF_3FFF. -/
theorem test_park_frames : parkFrame 3 0 = 0x1FF0000 ∧ parkFrame 3 16383 = 0x1FF3FFF ∧ dieFrame 0x1FF0000 = 0x3FE000 := by
  decide +kernel

/-- 05_ordering_atomics, worked example: the home slice of 0x00_0800_0040. -/
theorem test_home_slice : sliceOf (lineOf 0x08000040) = 1 := by decide +kernel

/-- 16_register_map, worked example: two register offsets. -/
theorem test_register_offsets : rDmaStatus 52 = 0x91D04 ∧ rLnkErr 14 = 0x11E08 := by decide

/-- 12_management_signpost, worked example: the first three words of the governor packet. -/
theorem test_governor_packet :
    (packWords (headBytes 0x73 0x0102 12 1 ++ [0x4C, 0x1D, 0, 0])) = [0x01020073, 0x0001000C, 0x00001D4C] := by decide +kernel

/-- 14_event_counters, worked example: 0xFFFF_FFFF_FFFE and three more is 1, with the overflow bit. -/
theorem test_counter_wrap :
    let s := { tReg tUp (rCntCfg 5) ((layout (rCntCfg 5)).reset ||| 0xaf) with cnts := [(5, ⟨0xFFFFFFFFFFFE, 0⟩)] }
    ((s.count 0x2f {} 3).cnt 5).value = 1 ∧ (s.count 0x2f {} 3).bit rCntOvfLo 5 = true := by decide +kernel

/-- R260, R369: after PORST_N rises with STRAP_RECOVER the boot stops and CW0 is DISABLED. -/
theorem test_recover_strap :
    (State.recoverStop { tUp with links := [] }).power.boot = .recover ∧
    ((State.recoverStop { tUp with links := [] }).link 0).state = .disabled := by decide +kernel

/-- R337: the second overrun in a row is shoulder mode with cause 3. -/
theorem test_second_overrun :
    (after .tickOverrun (tSaf tUp (fun f => { f with marker := false, overrunRun := 1 }))).saf.safe = .shoulder ∧
    (after .tickOverrun (tSaf tUp (fun f => { f with marker := false, overrunRun := 1 }))).mgt.shoulderCause = 3 := by
  decide +kernel

/-- R88: a whole-line write is answered in the fc after its acceptance, and memory has not changed. -/
theorem test_wrFull_accepted :
    let t := after (.wrFull 0 tReq (List.replicate 8 3)) tOpen
    (t.port 0).layby.length = 1 ∧ t.mem.array = [] ∧ t.out.length = 1 := by decide +kernel

/-- R77, R140: a read over a line border enters its queue as two entries with one answer. -/
theorem test_read_queued :
    let t := after (.rdOnce 0 tCross) tOpen
    (t.queue 0).ents.length = 2 ∧ (t.queue 0).answers.length = 1 ∧ (t.link 0).reqTags = [1] := by decide +kernel

/-- R322: a pending source sends nothing further. -/
theorem test_interrupt_once : ((tReg tUp rIntrPend 0x100).raise 8 0) = tReg tUp rIntrPend 0x100 := by decide +kernel

/-- R149: a conditional store holds a queue entry and a lay-by entry. -/
theorem test_wrCond_queued :
    let t := after (.wrCond 0 tReq (List.replicate 8 3)) tOpen
    (t.queue 0).ents.length = 1 ∧ (t.port 0).layby.length = 1 := by decide +kernel

/-- R318: the identity bytes of the target. -/
theorem test_i3c_identity :
    (after .getbcr tUp).out = [.i3cBytes [0x06]] ∧ (after .getdcr tUp).out = [.i3cBytes [0x00]] := by decide +kernel

end Sys2Proof.Tests
end

section
/-! SUPPORT. Writes of registers without an effect of their own (R12, R13, R15, R371): the bits that a write leaves, what is
read after it, and the path of the command REGISTER_WRITE to its register. -/
namespace Sys2Proof.Machine

/-! ### The bits that a write leaves -/

/-- One bit of a written word: a writable bit takes the written value, then a 1 written to a W1C bit clears it. -/
theorem getLsbD_writeBits (y : Layout) (w v : Word) (i : Nat) :
    (writeBits y w v).getLsbD i =
      ((if (y.rw ||| y.votedMask).getLsbD i then v.getLsbD i else w.getLsbD i) && !(v.getLsbD i && y.w1c.getLsbD i)) := by
  simp only [writeBits]
  generalize y.rw ||| y.votedMask = m
  by_cases hi : i < 32
  · cases hm : m.getLsbD i <;> simp [-BitVec.getLsbD_eq_getElem, hi, hm]
  · simp [BitVec.getLsbD_of_ge _ i (Nat.le_of_not_lt hi)]

section
variable {y : Layout} {i : Nat} (w v : Word)

theorem getLsbD_writeBits_of_kept (hm : (y.rw ||| y.votedMask).getLsbD i = false) (hc : y.w1c.getLsbD i = false) :
    (writeBits y w v).getLsbD i = w.getLsbD i := by
  simp [getLsbD_writeBits, hm, hc]

theorem getLsbD_writeBits_of_writable (hm : (y.rw ||| y.votedMask).getLsbD i = true) (hc : y.w1c.getLsbD i = false) :
    (writeBits y w v).getLsbD i = v.getLsbD i := by
  simp [getLsbD_writeBits, hm, hc]

theorem getLsbD_writeBits_of_w1c (hm : (y.rw ||| y.votedMask).getLsbD i = false) (hc : y.w1c.getLsbD i = true) :
    (writeBits y w v).getLsbD i = (w.getLsbD i && !(v.getLsbD i)) := by
  simp [getLsbD_writeBits, hm, hc]

end

/-! ### Reading a register after a write -/

section
variable (s : State)

theorem State.reg3_writeReg_same (h : s.tablesWf = true) (o : Nat) (v : Word) :
    (s.writeReg o v).reg3 o =
      ⟨writeBits (layout o) (s.reg3 o).a v, writeBits (layout o) (s.reg3 o).a v, writeBits (layout o) (s.reg3 o).a v⟩ := by
  simp [State.writeReg, State.putReg, State.reg3_setReg3 s h]

theorem State.reg3_writeReg_other (h : s.tablesWf = true) {o p : Nat} (hp : p ≠ o) (v : Word) :
    (s.writeReg o v).reg3 p = s.reg3 p := by
  simp [State.writeReg, State.putReg, State.reg3_setReg3 s h, hp]

/-! ### From the command to the register -/

/-- An awake device serves an access to the control space as it stands (R354, R377). -/
theorem State.ctl_of_awake (hrun : s.power.boot = .run) (hsafe : s.saf.safe ≠ .stop) (hidle : s.power.idle = false)
    (f : State → State) : s.ctl f = f s := by
  have hon : s.ctlOn = true := by simp [State.ctlOn, hrun, hsafe]
  have hwake : s.wake = s := by simp [State.wake, hidle]
  rw [State.ctl, if_pos hon, hwake]

/-- The offset of a plain register is none of those that `State.ctlWrite` serves in a way of their own. -/
theorem plainOff_iff (o : Nat) :
    plainOff o = true ↔
      ¬(0x11000 ≤ o ∧ o < 0x12000 ∧ o % 0x100 = 0) ∧ ¬(0x21000 ≤ o ∧ o < 0x22000) ∧ ¬(0x80100 ≤ o ∧ o < 0x80500) ∧
      ¬(0x91000 ≤ o ∧ o < 0x92000) ∧ ¬(0xC1000 ≤ o ∧ o < 0xC1800 ∧ o % 0x20 = 0x10) ∧
      ¬(0xC1000 ≤ o ∧ o < 0xC1800 ∧ o % 0x20 = 0x14) ∧
      o ∉ [rHomRsv, rMaintCmd, rTestCtrl, rPrkCtrl, rVacCmd, rPrkRelease, rCryCtrl, rCmdFifo, rCmdCtrl, rIntrPend, rIntrMask,
        rIntrDmaLo, rIntrDmaHi, rPrtGctl, rStoCtrl, rRetireThresh] := by
  simp only [plainOff, Bool.and_eq_true, Bool.not_eq_true', Bool.and_eq_false_iff, Bool.or_eq_false_iff, decide_eq_false_iff_not,
    beq_eq_false_iff_ne, List.contains_eq_mem, Decidable.not_and_iff_or_not, or_and_left, or_assoc, and_assoc, ne_eq]

/-- A write to the offset of a plain register is no more than the write of its stored bits (R371). -/
theorem State.ctlWrite_of_plainOff {o : Nat} (h : plainOff o = true) (v : Word) : s.ctlWrite o v = s.writeReg o v := by
  obtain ⟨hlnk, hbudget, hwin, hdma, hcntLo, hcntHi, hnamed⟩ := (plainOff_iff o).1 h
  simp only [List.mem_cons, List.not_mem_nil, or_false, not_or] at hnamed
  simp only [State.ctlWrite, hlnk, hbudget, hwin, hdma, hcntLo, hcntHi, hnamed, or_self, if_false]

end

/-! ### The statement -/

/-- Settles O44: the command reaches `State.writeReg` alone, whose word is read back bit by bit. -/
theorem registerWrite : Obligations.RegisterWrite := by
  intro s off v hrun hsafe hidle hplain
  refine ⟨?_, fun hwf o ho => s.reg3_writeReg_other hwf ho v, fun hwf i => ?_⟩
  · calc exec (.registerWrite off v) s
        = (s.ctl (·.ctlWrite off.toNat v)).done := rfl
      _ = (s.ctlWrite off.toNat v).done := by rw [s.ctl_of_awake hrun hsafe hidle]
      _ = .next (s.writeReg off.toNat v).norm := by rw [s.ctlWrite_of_plainOff hplain, State.done_next]
  · rw [s.reg3_writeReg_same hwf]
    exact ⟨rfl, rfl, getLsbD_writeBits_of_kept _ v, getLsbD_writeBits_of_writable _ v, getLsbD_writeBits_of_w1c _ v⟩

end Sys2Proof.Machine
end

section
/-! SUPPORT. A step without a command, in a clocked device and in one that is not clocked (log entry 2), and the fc at the end
of a tick (R31). -/
namespace Sys2Proof.Machine

/-- The power-loss drain runs without the clock, so the two cases of an idle step that do something exclude each other. -/
theorem Boot.ne_powerDrain_of_clocked {b : Boot} (h : b.clocked = true) : b ≠ .powerDrain := by
  rintro rfl
  simp [Boot.clocked] at h

section
variable (s : State)

theorem step_of_no_command (h : s.pending = []) : step s = .next (idleFc s) := by rw [step, h]

theorem idleFc_of_clocked (h : s.power.boot.clocked = true) : idleFc s = s.fcPass.norm := by
  simp [idleFc, h, Boot.ne_powerDrain_of_clocked h]

theorem idleFc_of_not_clocked (h : s.power.boot.clocked = false) (hdrain : s.power.boot ≠ .powerDrain) : idleFc s = s := by
  simp [idleFc, h, hdrain]

/-- In the last fc of a tick the machine waits for TICK_BOUNDARY. -/
theorem State.fcPass_of_last (h : fcPerTick ≤ s.fc + 1) : s.fcPass = s := by
  rw [State.fcPass, if_neg (Nat.not_lt.2 h)]

end

/-! ### The statement -/

/-- Settles O2: by the case of the idle step; in a clocked device whose tick has no fc left, `State.fcPass` stands still. -/
theorem idleStep : Obligations.IdleStep := by
  intro s hqueue
  rw [step_of_no_command s hqueue]
  refine ⟨fun hclock hdrain => ?_, fun hclock => ?_, fun hclock hlast => ?_⟩
  · rw [idleFc_of_not_clocked s hclock hdrain]
  · rw [idleFc_of_clocked s hclock]
  · rw [idleFc_of_clocked s hclock, s.fcPass_of_last hlast]

end Sys2Proof.Machine
end

section
/-! SUPPORT. One link of the table of links: a read after a write in any table, canonical or not, and writes that follow
each other. A link that has left its reset state is listed, so a write of it is read back whatever the table's form. -/
namespace Sys2Proof.Machine

/-! ### Tables that need not be canonical -/

section
variable {α : Type} (d : Nat → α) (t : Tbl α)

theorem tget_tdel_of_ne {j k : Nat} (h : j ≠ k) : tget d (tdel k t) j = tget d t j := by
  induction t with
  | nil => rfl
  | cons e r ih =>
    obtain ⟨m, w⟩ := e
    simp only [tdel]
    split
    · next hm => rw [tget_cons, if_neg (hm ▸ h.symm)]
    · simp only [tget_cons, ih]

theorem tput_tput (k : Nat) (v w : α) : tput k w (tput k v t) = tput k w t := by
  induction t with
  | nil => simp [tput]
  | cons e r ih =>
    obtain ⟨m, x⟩ := e
    rcases Nat.lt_trichotomy k m with h | h | h
    · simp [tput, h]
    · simp [tput, h]
    · simp [tput, Nat.lt_asymm h, Nat.ne_of_gt h, ih]

variable [DecidableEq α]

theorem tget_tset_of_ne {j k : Nat} (h : j ≠ k) (v : α) : tget d (tset d t k v) j = tget d t j := by
  unfold tset
  split
  · exact tget_tdel_of_ne d t h
  · rw [tget_tput, if_neg h]

theorem tget_tset_of_ne_default {k : Nat} {v : α} (h : v ≠ d k) : tget d (tset d t k v) k = v := by
  rw [tset, if_neg h, tget_tput, if_pos rfl]

theorem tset_tset_of_ne_default {k : Nat} {v w : α} (hv : v ≠ d k) (hw : w ≠ d k) :
    tset d (tset d t k v) k w = tset d t k w := by
  simp only [tset, if_neg hv, if_neg hw, tput_tput]

end

/-! ### One link -/

theorem Link.ne_init_of_state {k : Link} (h : k.state ≠ .detect) : k ≠ .init := by
  rintro rfl
  exact h rfl

theorem LinkState.ne_detect_of_active {x : LinkState} (h : x = .active) : x ≠ .detect := by simp [h]

section
variable (s : State)

theorem State.link_setLink_other {j l : Nat} (h : j ≠ l) (v : Link) : (s.setLink l v).link j = s.link j :=
  tget_tset_of_ne linkDef s.links h v

theorem State.link_setLink_of_ne_init {l : Nat} {v : Link} (h : v ≠ .init) : (s.setLink l v).link l = v :=
  tget_tset_of_ne_default linkDef s.links h

/-- A link in any state but DETECT is read back as it was written. -/
theorem State.link_setLink_same {l : Nat} {v : Link} (h : v.state ≠ .detect) : (s.setLink l v).link l = v :=
  s.link_setLink_of_ne_init (Link.ne_init_of_state h)

theorem State.setLink_setLink {l : Nat} {v w : Link} (hv : v.state ≠ .detect) (hw : w.state ≠ .detect) :
    (s.setLink l v).setLink l w = s.setLink l w := by
  simp only [State.setLink]
  rw [tset_tset_of_ne_default linkDef s.links (Link.ne_init_of_state hv) (Link.ne_init_of_state hw)]

@[simp] theorem State.emit_link (o : Out) (j : Nat) : (s.emit o).link j = s.link j := rfl
@[simp] theorem State.linkOut_link (l op : Nat) (ps : List Nat) (j : Nat) : (s.linkOut l op ps).link j = s.link j := rfl

end

end Sys2Proof.Machine
end


section
/-! SUPPORT. Answers of a peer target (R58, R69, R70, R145): the slots of the receive buffer that an answer frees, the access
that it ends, and the end of an access without an answer. -/
namespace Sys2Proof.Machine

section
variable (s : State)

/-! ### Slots of the receive buffer -/

@[simp] theorem State.freeSlots_ports (l c n : Nat) : (s.freeSlots l c n).ports = s.ports := by
  unfold State.freeSlots; dsimp only; split <;> rfl
@[simp] theorem State.freeSlots_queues (l c n : Nat) : (s.freeSlots l c n).queues = s.queues := by
  unfold State.freeSlots; dsimp only; split <;> rfl
@[simp] theorem State.freeSlots_home (l c n : Nat) : (s.freeSlots l c n).home = s.home := by
  unfold State.freeSlots; dsimp only; split <;> rfl

@[simp] theorem State.freeSlots_port (l c n p : Nat) : (s.freeSlots l c n).port p = s.port p := by simp [State.port]
@[simp] theorem State.freeSlots_queue (l c n q : Nat) : (s.freeSlots l c n).queue q = s.queue q := by simp [State.queue]

@[simp] theorem State.dropTag_ports (l tag : Nat) : (s.dropTag l tag).ports = s.ports := rfl
@[simp] theorem State.dropTag_queues (l tag : Nat) : (s.dropTag l tag).queues = s.queues := rfl
@[simp] theorem State.dropTag_home (l tag : Nat) : (s.dropTag l tag).home = s.home := rfl
@[simp] theorem State.dropTag_port (l tag p : Nat) : (s.dropTag l tag).port p = s.port p := rfl
@[simp] theorem State.dropTag_queue (l tag q : Nat) : (s.dropTag l tag).queue q = s.queue q := rfl

theorem State.wf_freeSlots (h : s.tablesWf = true) (l c n : Nat) : (s.freeSlots l c n).tablesWf = true := by
  unfold State.freeSlots
  dsimp only
  split
  · exact State.wf_setLink _ (State.wf_setLink s h _ _) _ _
  · exact State.wf_setLink s h _ _

theorem State.freeSlots_devTags {l : Nat} (h : (s.link l).state = .active) (c n : Nat) :
    ((s.freeSlots l c n).link l).devTags = (s.link l).devTags := by
  unfold State.freeSlots State.sendToll
  dsimp only
  split <;> simp [State.link_setLink_same, h]

theorem State.freeSlots_state {l : Nat} (h : (s.link l).state = .active) (c n : Nat) :
    ((s.freeSlots l c n).link l).state = .active := by
  unfold State.freeSlots State.sendToll
  dsimp only
  split <;> simp [State.link_setLink_same, h]

/-! ### An answer that nothing forbids -/

section
variable {s} {l : Nat} {r : Rsp} (hact : (s.link l).state = .active)

theorem State.rspBad_eq_false (hstream : r.stream.toNat ≤ (s.link l).streamCntM1) (hstatus : r.status.toNat ≤ 5) :
    s.rspBad l r true = false := by
  simp [State.rspBad, hstream, hstatus]

include hact

/-- An answer that is allowed and fits in the receive buffer takes effect once its slots are free again (R49, R74). -/
theorem State.rspIn_of_allowed {c n : Nat} (hroom : (s.link l).rxHeld.get c + (s.link l).rxFreed.get c + n ≤ devAdv c)
    (hbad : s.rspBad l r true = false) (body : State → State) :
    s.rspIn l c n r true body = body (s.freeSlots l c n) := by
  simp [State.rspIn, State.carrying, hact, Nat.not_lt.2 hroom, hbad]

theorem State.freeSlots_devAccess (c n : Nat) (isRead : Bool) :
    (s.freeSlots l c n).devAccess l r isRead = s.devAccess l r isRead := by
  simp only [State.devAccess, s.freeSlots_devTags hact]

theorem State.dropTag_devTags (tag : Nat) :
    ((s.dropTag l tag).link l).devTags = (s.link l).devTags.filter (fun x => x.tag != tag) := by
  simp [State.dropTag, State.link_setLink_same, hact]

/-- A CMP that ends a write in time: its tag is free and its lay-by entry is released (R70, R89). -/
theorem State.cmpIn_of_write (hstream : r.stream.toNat ≤ (s.link l).streamCntM1) (hstatus : r.status.toNat ≤ 5)
    {d : DevTag} (hd : s.devAccess l r false = some d) (htime : d.timedOut = false)
    (hroom : (s.link l).rxHeld.rsp + (s.link l).rxFreed.rsp + 1 ≤ 64) :
    s.cmpIn l r = ((s.freeSlots l 2 1).dropTag l d.tag).setPort d.port ((s.port d.port).release d.ansId) := by
  rw [State.cmpIn, hd, Option.isSome_some, State.rspIn_of_allowed hact hroom (State.rspBad_eq_false hstream hstatus)]
  simp only [State.freeSlots_devAccess hact, hd, htime, State.dropTag_port, State.freeSlots_port, Bool.false_eq_true,
    if_false]

/-- A DATA that ends a read in time: its tag is free and its answer has the partner's status and bytes (R69, R70). -/
theorem State.dataIn_of_read (hstream : r.stream.toNat ≤ (s.link l).streamCntM1) (hstatus : r.status.toNat ≤ 5)
    {d : DevTag} {slots : List MsgSlot} (hd : s.devAccess l r true = some d) (htime : d.timedOut = false)
    (hroom : (s.link l).rxHeld.dat + (s.link l).rxFreed.dat + (1 + slots.length) ≤ 144) :
    s.dataIn l r slots = ((s.freeSlots l 3 (1 + slots.length)).dropTag l d.tag).answer (queueOf d.port d.tc) d.ansId 0
      ⟨r.status, grI, slotsFrom (d.addr % 128 / 16) slots, 0⟩ := by
  rw [State.dataIn, hd, Option.isSome_some, State.rspIn_of_allowed hact hroom (State.rspBad_eq_false hstream hstatus)]
  simp only [State.freeSlots_devAccess hact, hd, htime, Bool.false_eq_true, if_false]

/-- The end of an access without an answer, on a link where no message waits: its tag stays in use (R54, R70). -/
theorem State.targetTimeout_of_active {tag : Nat} {d : DevTag}
    (hd : (s.link l).devTags.find? (fun x => x.tag == tag && !x.timedOut) = some d) (hwait : (s.link l).txWait = []) :
    s.targetTimeout l tag =
      let u := s.setLink l { s.link l with
        devTags := (s.link l).devTags.map (fun x => if x.tag == tag then { x with timedOut := true } else x) }
      if d.isRead then u.answer (queueOf d.port d.tc) d.ansId 0 (badRes stBusErr)
      else (u.setPort d.port (((s.port d.port).release d.ansId).lose)).err (rLnkErr l) 1 10 .p (some d.port) d.addr := by
  have halive : (s.link l).state.alive = true := by simp [hact, LinkState.alive]
  simp only [State.targetTimeout, hd, halive, if_true, hwait, List.filter_nil]
  rw [← hwait]
  rfl

end

end

/-! ### The statement -/

/-- Settles O33: an answer ends the access it names after its slots are freed, and a timeout ends it as the kind of access
says. -/
theorem peerAccessEnds : Obligations.PeerAccessEnds := by
  intro s l r slots d k hact hstream hstatus
  refine ⟨fun hwf hd htime hroom => ?_, fun hwf hd htime hroom => ?_, fun tag hd hwait => ?_⟩
  · have hwf' : ((s.freeSlots l 2 1).dropTag l d.tag).tablesWf = true :=
      State.wf_setLink _ (s.wf_freeSlots hwf _ _ _) _ _
    refine ⟨_, (congrArg State.done (State.cmpIn_of_write hact hstream hstatus hd htime hroom)).trans
      (State.done_eq _ (State.wf_setPort _ hwf' _ _)), ?_, fun j hj => ?_, ?_, by simp, by simp⟩
    · simp [State.port_setPort _ hwf']
    · simp [State.port_setPort _ hwf', hj]
    · exact (State.dropTag_devTags (s.freeSlots_state hact _ _) d.tag).trans (by rw [s.freeSlots_devTags hact])
  · have hwf' : ((s.freeSlots l 3 (1 + slots.length)).dropTag l d.tag).tablesWf = true :=
      State.wf_setLink _ (s.wf_freeSlots hwf _ _ _) _ _
    refine ⟨_, (congrArg State.done (State.dataIn_of_read hact hstream hstatus hd htime hroom)).trans
      (State.done_eq _ (State.wf_setQueue _ hwf' _ _)), ?_, ?_, by simp [State.answer], by simp [State.answer]⟩
    · simp [State.answer, State.queue_setQueue _ hwf']
    · exact (State.dropTag_devTags (s.freeSlots_state hact _ _) d.tag).trans (by rw [s.freeSlots_devTags hact])
  · have hend := State.targetTimeout_of_active hact hd hwait
    refine ⟨fun hread => ?_, fun hwrite => ?_⟩
    · exact congrArg State.done (hend.trans (if_pos hread))
    · exact congrArg State.done (hend.trans (if_neg (by simp [hwrite])))

end Sys2Proof.Machine
end

section
/-! SUPPORT. Training of a link (R60 to R64, R108): what a failed attempt does, the effective role, and the end of each
training state. -/
namespace Sys2Proof.Machine

section
variable (s : State)

theorem State.guardVotes_of_votesOk {used : Nat → Bool} (h : s.votesOk (s.votedUsed used) = true) :
    s.guardVotes used = s := if_pos h

/-! ### A failed attempt (R60) -/

theorem State.trainFail_of_lt {l : Nat} (h : (s.link l).trainFails < 2) :
    s.trainFail l = s.setLink l { (s.link l).toSync with trainFails := (s.link l).trainFails + 1 } :=
  if_pos (Nat.succ_lt_succ h)

theorem State.trainFail_of_le {l : Nat} (h : 2 ≤ (s.link l).trainFails) :
    s.trainFail l =
      ((s.setLink l { s.link l with trainFails := 0 }).err (rLnkErr l) 1 9 .info (linkPort l) 0).linkDead l 3 :=
  if_neg (Nat.not_lt.2 (Nat.succ_le_succ h))

/-! ### The effective role (R64, R108) -/

theorem State.linkRole_of_no_partner (l : Nat) : (s.linkRole l false).1 = false := by
  unfold State.linkRole
  dsimp only
  split
  · rfl
  · simp

/-- A link that may cache, in a domain whose class is not latched yet, caches. -/
theorem State.linkRole_of_not_latched {l : Nat} (hcaching : s.bit (rLnkCtrl l) 1 = true) (hwide : s.home.wide = none)
    (hshoulder : s.mgt.shoulder = false) (hplace : l < 14 ∨ s.cachingBits ≤ 8) : s.linkRole l true = (true, false) := by
  have hdetachable : ¬(14 ≤ l ∧ 8 < s.cachingBits) := by omega
  simp [State.linkRole, hcaching, hwide, hshoulder, hdetachable]

/-- A detachable link does not cache in a wide domain. -/
theorem State.linkRole_of_detachable {l : Nat} (hl : 14 ≤ l) (hwide : s.home.wide = some true) (partner : Bool) :
    (s.linkRole l partner).1 = false := by
  simp only [State.linkRole, hl, hwide, decide_true, Bool.true_and, beq_self_eq_true, Bool.true_or, if_true]
  repeat' split
  all_goals rfl

/-! ### The width (R62) -/

theorem chooseWidth_of_all {x4only : Bool} (h : x4only = false) : chooseWidth 255 x4only = some (false, false) :=
  if_pos ⟨rfl, h⟩

theorem Link.retrainWidth_of_all {k : Link} (h : k.x4 = false) :
    k.retrainWidth 255 = { k with laneGood := 255, x4 := false, lanesHi := false } := by
  rw [Link.retrainWidth, h, chooseWidth_of_all rfl]
  rfl

/-! ### The link becomes ACTIVE (R63, R69, R108) -/

theorem State.trainedNext_of_running (hsafe : s.saf.safe ≠ .stop) (l : Nat) : s.trainedNext l = s.trained l := by
  simp [State.trainedNext, hsafe]

theorem State.trained_of_no_caching {l : Nat} (h : (s.link l).roleCaching = false) :
    s.trained l = s.setLink l { s.link l with
      state := .active, txAvail := (s.link l).adv, trainFails := 0
      peerWindows := ((s.link l).lastParam.map (fun p => p.role.getLsbD 1)).getD (s.link l).peerWindows } := by
  simp [State.trained, h]

/-- The link when it becomes ACTIVE in this effective role (and forced flag), with the tolls that the partner advertised. -/
def Link.trainedAs (k : Link) (role : Bool × Bool) : Link :=
  { k with
    roleCaching := role.1, roleForced := role.2, state := .active, txAvail := k.adv, trainFails := 0
    peerWindows := (k.lastParam.map (fun p => p.role.getLsbD 1)).getD k.peerWindows }

/-- What training does to a link with a caching role: the link, and the domain class that the first caching link latches. -/
theorem State.trained_of_caching {l : Nat} (h : (s.link l).roleCaching = true) :
    s.trained l =
      let u := s.setLink l ((s.link l).trainedAs (s.linkRole l true))
      if (s.linkRole l true).1 && s.home.wide.isNone then u.setHome { s.home with wide := some (decide (8 < s.cachingBits)) }
      else u := by
  unfold State.trained
  simp only [h, if_true]
  rfl

theorem State.trained_link {l : Nat} (h : (s.link l).roleCaching = true) :
    (s.trained l).link l = (s.link l).trainedAs (s.linkRole l true) := by
  have hread : (s.setLink l ((s.link l).trainedAs (s.linkRole l true))).link l = _ :=
    s.link_setLink_same (by simp [Link.trainedAs])
  rw [s.trained_of_caching h]
  dsimp only
  split
  · exact hread
  · exact hread

end

/-! ### TS_DONE (R60, R63) -/

theorem exec_tsDone_of_eq (s : State) {l : Fin 16} (h : (s.link l.val).state = .eq)
    (hvotes : s.votesOk (s.votedUsed usesLinks) = true) (hsafe : s.saf.safe ≠ .stop) :
    exec (.tsDone l) s = .next (s.trained l.val).norm := by
  show execTsDone l s = _
  simp only [execTsDone, h, s.guardVotes_of_votesOk hvotes, s.trainedNext_of_running hsafe]
  rfl

/-! ### TS_PARAM (R61, R62, R64) -/

/-- The parameters of a partner that no training fails for. -/
def goodParam (p : TsParam) : Prop :=
  p.protoVer = 1 ∧ 1 ≤ p.streamCnt.toNat ∧ p.streamCnt.toNat ≤ 64 ∧ 18 ≤ p.req.toNat ∧ 16 ≤ p.snp.toNat ∧
    16 ≤ p.rsp.toNat ∧ 36 ≤ p.dat.toNat ∧ 4 ≤ p.ctl.toNat

/-- The link in EQ with what the exchange settled. -/
def State.paramLink (s : State) (l : Nat) (p : TsParam) : Link :=
  let k := s.link l
  { k with
    state := .eq, rate := min (min 2 (s.fld (rLnkCtrl l) 2 2)) p.maxRate.toNat, x4 := false, lanesHi := false
    roleCaching := (s.linkRole l (p.role.getLsbD 0)).1, roleForced := (s.linkRole l (p.role.getLsbD 0)).2
    streamCntM1 := p.streamCnt.toNat - 1
    eqPreset := if k.eqKeep then k.eqPreset else Config.factoryEq l + s.trimOf 0 l, eqKeep := false
    adv := ⟨p.req.toNat, p.snp.toNat, p.rsp.toNat, p.dat.toNat, p.ctl.toNat⟩ }

theorem State.paramDone_of_good (s : State) {l : Nat} {p : TsParam} (hp : goodParam p)
    (hlanes : (s.link l).laneGood &&& p.laneOk = 255) (hx8 : s.bit (rLnkCtrl l) 4 = false) :
    s.paramDone l p = (s.setLink l (s.paramLink l p)).emit (.train l 3) := by
  obtain ⟨hver, hstr, hstr', hreq, hsnp, hrsp, hdat, hctl⟩ := hp
  have hstr0 : (p.streamCnt == 0) = false := by
    simp only [beq_eq_false_iff_ne]
    rintro h
    simp [h] at hstr
  unfold State.paramDone
  simp only [hver, hstr0, hlanes, Nat.not_lt.2 hstr', Nat.not_lt.2 hreq, Nat.not_lt.2 hsnp, Nat.not_lt.2 hrsp,
    Nat.not_lt.2 hdat, Nat.not_lt.2 hctl, chooseWidth_of_all hx8, bne_self_eq_false, decide_false, Bool.and_false,
    Bool.or_false]
  rfl

/-- A TS_PARAM is counted and answered with one of the device's own (log entry 58): `n` alike in a row, `m` sent. -/
def State.paramCounted (s : State) (l : Nat) (p : TsParam) (n m : Nat) : State :=
  (s.setLink l { s.link l with lastParam := some p, paramSame := n, paramSent := m }).emit (.train l 1)

theorem State.paramCounted_votesOk (s : State) (l : Nat) (p : TsParam) (n m : Nat) (used : Nat → Bool) :
    (s.paramCounted l p n m).votesOk ((s.paramCounted l p n m).votedUsed used) = s.votesOk (s.votedUsed used) := rfl

section
variable (s : State) {l : Fin 16} {p : TsParam} (h : (s.link l.val).state = .param)
include h

theorem exec_tsParam_of_new (hlast : (s.link l.val).lastParam ≠ some p) :
    exec (.tsParam l p) s = .next (s.paramCounted l.val p 1 1).norm := by
  have hsame : ((s.link l.val).lastParam == some p) = false := by simpa using hlast
  show execTsParam l p s = _
  simp only [execTsParam, hsame, beq_iff_eq.2 h, if_true]
  rfl

theorem exec_tsParam_of_short (hlast : (s.link l.val).lastParam = some p)
    (hshort : (s.link l.val).paramSame < 7 ∨ (s.link l.val).paramSent < 15) :
    exec (.tsParam l p) s =
      .next (s.paramCounted l.val p ((s.link l.val).paramSame + 1) ((s.link l.val).paramSent + 1)).norm := by
  have hmore : ¬(8 ≤ (s.link l.val).paramSame + 1 ∧ 16 ≤ (s.link l.val).paramSent + 1) := by omega
  show execTsParam l p s = _
  simp only [execTsParam, beq_iff_eq.2 hlast, beq_iff_eq.2 h, if_true, if_neg hmore]
  rfl

theorem exec_tsParam_of_last (hlast : (s.link l.val).lastParam = some p) (hsame : 7 ≤ (s.link l.val).paramSame)
    (hsent : 15 ≤ (s.link l.val).paramSent) (hvotes : s.votesOk (s.votedUsed usesLinks) = true)
    (hsafe : s.saf.safe ≠ .stop) :
    exec (.tsParam l p) s = .next ((s.paramCounted l.val p ((s.link l.val).paramSame + 1) ((s.link l.val).paramSent + 1)
      ).paramDone l.val p).norm := by
  have hdone : 8 ≤ (s.link l.val).paramSame + 1 ∧ 16 ≤ (s.link l.val).paramSent + 1 := by omega
  have hvotes' :
      (s.paramCounted l.val p ((s.link l.val).paramSame + 1) ((s.link l.val).paramSent + 1)).guardVotes usesLinks = _ :=
    State.guardVotes_of_votesOk _ ((s.paramCounted_votesOk l.val p _ _ usesLinks).trans hvotes)
  have hrun (u : State) (hu : u.saf = s.saf) : u.paramNext l.val p = u.paramDone l.val p := by
    simp [State.paramNext, hu, hsafe]
  rw [← hrun (s.paramCounted l.val p _ _) rfl, ← hvotes']
  show execTsParam l p s = _
  simp only [execTsParam, beq_iff_eq.2 hlast, beq_iff_eq.2 h, if_true, if_pos hdone]
  rfl

theorem State.paramCounted_link (n m : Nat) :
    (s.paramCounted l.val p n m).link l.val = { s.link l.val with lastParam := some p, paramSame := n, paramSent := m } :=
  s.link_setLink_same (v := { s.link l.val with lastParam := some p, paramSame := n, paramSent := m }) (by simp [h])

end

/-! ### The statements -/

/-- Settles O16: each timeout acts in its own training state alone; a failed attempt is the third in a row or not. -/
theorem trainingEnds : Obligations.TrainingEnds := by
  intro s l k again dead
  have hagain (h : k.trainFails < 2) : s.trainFail l.val = again := s.trainFail_of_lt h
  have hdead (h : 2 ≤ k.trainFails) : s.trainFail l.val = dead := s.trainFail_of_le h
  have hsync (h : k.state = .sync) : exec (.syncTimeout l) s = .next (s.trainFail l.val).norm :=
    congrArg State.done (if_pos (beq_iff_eq.2 h))
  have hparam (h : k.state = .param) : exec (.paramTimeout l) s = .next (s.trainFail l.val).norm :=
    congrArg State.done (if_pos (beq_iff_eq.2 h))
  have heq (h : k.state = .eq) : exec (.eqTimeout l) s =
      .next (if 0 < k.rate then s.setLink l.val { k with rate := k.rate - 1 } else s.trainFail l.val).norm :=
    congrArg State.done (if_pos (beq_iff_eq.2 h))
  refine ⟨fun h hf => ?_, fun h hf => ?_, fun h hf => ?_, fun h hf => ?_, fun h hr hf => ?_, fun h hr hf => ?_,
    fun h hr => ?_, fun hrun h hl => ?_, fun h => congrArg State.done (if_pos (beq_iff_eq.2 h))⟩
  · rw [hsync h, hagain hf]
  · rw [hsync h, hdead hf]
  · rw [hparam h, hagain hf]
  · rw [hparam h, hdead hf]
  · rw [heq h, if_neg (by omega), hagain hf]
  · rw [heq h, if_neg (by omega), hdead hf]
  · rw [heq h, if_pos hr]
  · have hdetect : (s.link l.val).state = .detect := h
    exact congrArg State.done (if_pos (by simp [State.linksOn, hrun, hdetect, hl]))

/-- Settles O15: the forward step of each training state; in PARAM the device counts until the exchange is complete, and
then starts equalization with what both sides can do. -/
theorem linkTrains : Obligations.LinkTrains := by
  refine ⟨fun s l => ⟨fun lanes hrun h hpin hlanes => ?detect, fun lanes w h hw => ?sync, fun lanes h hx4 hlanes => ?retrainSync,
      fun h hrole hvotes hsafe => ?eqPlain, fun h hrole hwide hvotes hsafe hbit hshoulder hplace => ?eqCaching,
      fun h hrole hwide hl hvotes hsafe => ?eqDetachable, fun h => ?retrainDone, fun h => ?adapt⟩,
    fun s l p h => ⟨fun hlast => exec_tsParam_of_new s h hlast, fun hlast hshort => ?paramShort,
      fun hwf hlast hsame hsent hvotes hsafe hver hstr hstr' hreq hsnp hrsp hdat hctl hlanes hx8 => ?paramLast⟩⟩
  case detect =>
    exact ⟨_, congrArg State.done (if_pos (by simp [State.linksOn, hrun, h, hpin, hlanes])), rfl, rfl, rfl, rfl, rfl, rfl,
      rfl, rfl, rfl, rfl, rfl⟩
  case sync =>
    show execSyncComplete l lanes s = _
    simp only [execSyncComplete, h, hw]
    rfl
  case retrainSync =>
    show execSyncComplete l lanes s = _
    simp only [execSyncComplete, h, hlanes, Link.retrainWidth_of_all hx4]
    rfl
  case eqPlain => rw [exec_tsDone_of_eq s h hvotes hsafe, s.trained_of_no_caching hrole]
  case eqCaching =>
    have hcaches := s.linkRole_of_not_latched hbit hwide hshoulder hplace
    refine ⟨_, exec_tsDone_of_eq s h hvotes hsafe, ?_⟩
    rw [State.norm_link, s.trained_link hrole, hcaches]
    refine ⟨rfl, rfl, rfl, ?_⟩
    rw [s.trained_of_caching hrole, hcaches, hwide]
    exact ⟨rfl, rfl⟩
  case eqDetachable =>
    refine ⟨_, exec_tsDone_of_eq s h hvotes hsafe, ?_⟩
    rw [State.norm_link, s.trained_link hrole]
    exact ⟨rfl, s.linkRole_of_detachable hl hwide true⟩
  case retrainDone =>
    show execTsDone l s = _
    simp only [execTsDone, h]
    rfl
  case adapt => exact congrArg State.done (if_pos (by simpa using h))
  case paramShort => exact exec_tsParam_of_short s h hlast hshort
  case paramLast =>
    have hk := State.paramCounted_link s (p := p) h ((s.link l.val).paramSame + 1) ((s.link l.val).paramSent + 1)
    have hexec := exec_tsParam_of_last s h hlast hsame hsent hvotes hsafe
    generalize hu : s.paramCounted l.val p ((s.link l.val).paramSame + 1) ((s.link l.val).paramSent + 1) = u at hk hexec
    have hwf' : u.tablesWf = true := hu ▸ s.wf_setLink hwf _ _
    have hlink : (u.setLink l.val (u.paramLink l.val p)).link l.val = u.paramLink l.val p :=
      u.link_setLink_same (by simp [State.paramLink])
    have hgood : goodParam p := ⟨hver, hstr, hstr', hreq, hsnp, hrsp, hdat, hctl⟩
    rw [u.paramDone_of_good hgood (hk ▸ hlanes) (by subst hu; exact hx8),
      State.norm_eq _ (State.wf_emit _ (u.wf_setLink hwf' _ _) _)] at hexec
    refine ⟨_, hexec, ?_⟩
    rw [State.emit_link, hlink]
    refine ⟨rfl, ?_, rfl, rfl, rfl, ?_, ?_, fun hrole => ?_, fun j hj => ?_, ?_, ?_⟩
    · subst hu; rfl
    · simp only [State.paramLink, hk]
    · subst hu; simp [State.paramCounted, State.emit]
    · simp only [State.paramLink, hrole, u.linkRole_of_no_partner]
    · subst hu; simp [State.paramCounted, State.link_setLink_other _ hj]
    · subst hu; rfl
    · subst hu; rfl

end Sys2Proof.Machine
end

section
/-! SUPPORT. Presence pins and the orderly detach (R60, R71 to R74). -/
namespace Sys2Proof.Machine

section
variable (s : State) {l : Fin 16}

/-! ### The presence pin of a detachable link -/

theorem exec_presenceAssert (hl : 14 ≤ l.val) :
    exec (.presenceAssert l) s =
      let u := s.setLink l.val { s.link l.val with prsntHigh := false, debounce := false }
      .next (if (s.link l.val).state == .detached then u.toDetect l.val
        else u.setLink l.val { u.link l.val with present := true }).norm :=
  congrArg State.done (if_neg (Nat.not_lt.2 hl))

/-- A pin that is low differs from its reset value, so the link is listed. -/
theorem Link.ne_init_of_pin_low {k : Link} (h : k.prsntHigh = false) : k ≠ .init := by
  rintro rfl
  simp [Link.init] at h

theorem Link.ne_init_of_present {k : Link} (h : k.present = true) : k ≠ .init := by
  rintro rfl
  simp [Link.init] at h

/-- A detachable link with its pin low starts again in DETECT, present. -/
theorem State.toDetect_link {l : Nat} (hl : 14 ≤ l) (hpin : (s.link l).prsntHigh = false) :
    (s.toDetect l).link l =
      { s.link l with state := .detect, trainFails := 0, retrainsTick := 0, present := true } := by
  have hstart : (s.link l).startState l = .detect := by simp [Link.startState, hpin]
  have hpresent : (decide (14 ≤ l) && !(s.link l).prsntHigh) = true := by simp [hl, hpin]
  have hread : (s.toDetect l).link l = { s.link l with
      state := (s.link l).startState l, trainFails := 0, retrainsTick := 0
      present := decide (14 ≤ l) && !(s.link l).prsntHigh } :=
    s.link_setLink_of_ne_init (Link.ne_init_of_present hpresent)
  rw [hread, hstart, hpresent]

theorem exec_surpriseDetach_of_debounced (hl : 14 ≤ l.val) (hdeb : (s.link l.val).debounce = true)
    (hact : (s.link l.val).state = .active) :
    exec (.surpriseDetach l) s =
      .next ((((s.setLink l.val { s.link l.val with debounce := false }).err (rLnkErr l.val) 1 4 .info (linkPort l.val) 0
        ).raise 9 l.val).loseLink l.val .detached).norm :=
  congrArg State.done (if_neg (by simp [Nat.not_lt.2 hl, hdeb, hact]))

/-! ### The detach handshake (R72) -/

/-- The state in which DETACH_REQ has been taken in and its regions are due for a recall. -/
def State.detachDue (s : State) (l : Nat) : State :=
  let k := s.link l
  let u := (s.setLink l { k with detaching := true, rxHeld := k.rxHeld.upd 4 (· + 1) }).freeSlots l 4 1
  u.setHome { u.home with recallDue :=
    u.home.recallDue ++ (u.filterOfLink l).filter (fun d => !(u.home.recallDue.contains d)) }

theorem State.detachIn_of_room {l : Nat} (hl : 14 ≤ l) (hact : (s.link l).state = .active)
    (hroom : (s.link l).rxHeld.ctl + (s.link l).rxFreed.ctl < 8) : s.detachIn l = (s.detachDue l).settle := by
  have hroom' : ¬(devAdv 4 < (s.link l).rxHeld.get 4 + (s.link l).rxFreed.get 4 + 1) := Nat.not_lt.2 hroom
  have hcarry : ¬((!s.carrying l) = true) := by simp [State.carrying, hact]
  exact (if_neg hcarry).trans ((if_neg (Nat.not_lt.2 hl)).trans (if_neg hroom'))

theorem State.detachIn_of_soldered {l : Nat} (hl : l < 14) (hact : (s.link l).state = .active) :
    s.detachIn l = s.quarantine l 5 := by
  simp [State.detachIn, State.carrying, hact, hl]

theorem State.detachDue_recallDue (l : Nat) :
    (s.detachDue l).home.recallDue = s.home.recallDue ++
      ((((s.setLink l { s.link l with detaching := true, rxHeld := (s.link l).rxHeld.upd 4 (· + 1) }).freeSlots l 4 1
        ).filterOfLink l).filter (fun d => !(s.home.recallDue.contains d))) := by
  simp [State.detachDue]

theorem exec_detachComplete_of_ready (hact : (s.link l.val).state = .active) (hdet : (s.link l.val).detaching = true)
    (hready : s.detachReady l.val = true) (hsend : (s.link l.val).canSend detachAck = true)
    (hclear : (s.link l.val).classClear detachAck = true) :
    exec (.detachComplete l) s = .next (
      let u := (s.sendMsg l.val detachAck).dropPorts l.val
      let v := u.setLink l.val { u.link l.val with
        state := .detached, detaching := false, replayBuf := [], txWait := [], assembly := none, nakOut := false }
      (v.logEvent 1 0x80 .info (linkPort l.val) 0).raise 9 l.val).norm :=
  congrArg State.done (if_pos (by simp [State.carrying, hact, hdet, hready, hsend, hclear]))

end

/-! ### The statement -/

/-- Settles O21: the pin's edges by the state of the link, the debounce's end, and the detach handshake of a detachable and
of a soldered link. -/
theorem presenceAndDetach : Obligations.PresenceAndDetach := by
  refine ⟨fun s l hl => ?_, fun s l hl hact => congrArg State.done (s.detachIn_of_soldered hl hact)⟩
  intro k
  have hlow : (s.setLink l.val { k with prsntHigh := false, debounce := false }).link l.val =
      { k with prsntHigh := false, debounce := false } := s.link_setLink_of_ne_init (Link.ne_init_of_pin_low rfl)
  have hassert := exec_presenceAssert s hl
  refine ⟨fun h => ?_, fun h => ?_, fun h => ?_, ?_, exec_surpriseDetach_of_debounced s hl, fun h => ?_,
    fun hact hroom => ?_, exec_detachComplete_of_ready s⟩
  · rw [hassert]
    exact congrArg State.done (if_pos (beq_iff_eq.2 h))
  · refine ⟨_, hassert.trans (congrArg State.done (if_pos (beq_iff_eq.2 h))), ?_⟩
    rw [State.norm_link, State.toDetect_link _ hl (by rw [hlow]), hlow]
    exact ⟨rfl, rfl, rfl, rfl⟩
  · refine ⟨_, hassert.trans (congrArg State.done (if_neg (mt beq_iff_eq.1 h))), ?_⟩
    rw [State.norm_link, hlow]
    exact State.link_setLink_of_ne_init _ (Link.ne_init_of_present rfl)
  · exact congrArg State.done (if_neg (Nat.not_lt.2 hl))
  · exact congrArg State.done (if_pos (by simp [show (s.link l.val).debounce = false from h]))
  · exact ⟨s.detachDue l.val, congrArg State.done (s.detachIn_of_room hl hact hroom), s.detachDue_recallDue l.val⟩

end Sys2Proof.Machine
end

section
/-! SUPPORT. What reporting does to the links and to the record of outputs (R322, R328, R343), step by step and for tables in
any form: outputs are only added, a link that has left DETECT keeps all but what sending changes, and while INTR messages
have no port to go to (R322) no link changes at all. -/
namespace Sys2Proof.Machine

/-! ### Sending on a link -/

section
variable (s : State)

theorem State.wake_link (j : Nat) : s.wake.link j = s.link j := by
  unfold State.wake
  split <;> rfl

theorem State.wake_out : s.wake.out = s.out := by
  unfold State.wake
  split <;> rfl

/-- A write of a link that has left DETECT and that changes only what sending changes. -/
theorem State.setLink_link_core {l : Nat} {v : Link} (hv : v.state ≠ .detect) (hcore : v.core = (s.link l).core)
    (j : Nat) : ((s.setLink l v).link j).core = (s.link j).core := by
  by_cases hj : j = l
  · rw [hj, s.link_setLink_same hv, hcore]
  · rw [s.link_setLink_other hj]

theorem State.wakeLink_link_core {l : Nat} (h : (s.link l).state ≠ .detect) (j : Nat) :
    ((s.wakeLink l).link j).core = (s.link j).core := by
  unfold State.wakeLink
  dsimp only
  split
  · rw [State.emit_link, State.setLink_link_core _ (by exact h) (by rw [s.wake_link]; rfl), s.wake_link]
  · rfl

theorem State.sendRaw_link_core {l : Nat} (h : (s.link l).state ≠ .detect) (m : Msg) (j : Nat) :
    ((s.sendRaw l m).2.link j).core = (s.link j).core := by
  unfold State.sendRaw
  dsimp only
  split
  · exact s.setLink_link_core (v := (s.link l).send (s.txHalf.contains l) m) h rfl j
  · have hwait : ({ s.link l with txWait := (s.link l).txWait ++ [m] } : Link).state ≠ .detect := h
    rw [State.wakeLink_link_core _ (by rw [s.link_setLink_same hwait]; exact h), s.setLink_link_core hwait rfl]

theorem State.wakeLink_out (l : Nat) : s.out <+: (s.wakeLink l).out := by
  unfold State.wakeLink
  dsimp only
  split
  · exact ⟨[.wake l], by simp [State.emit, s.wake_out]⟩
  · exact List.prefix_refl _

theorem State.sendRaw_out (l : Nat) (m : Msg) : s.out <+: (s.sendRaw l m).2.out := by
  unfold State.sendRaw
  dsimp only
  split
  · exact List.prefix_append _ _
  · exact State.wakeLink_out (s.setLink l _) l

theorem State.setBit_bit_other {o p : Nat} (h : p ≠ o) (n m : Nat) : (s.setBit o n).bit p m = s.bit p m := by
  simp only [State.bit, State.fld, State.reg, State.reg3, State.setBit, State.setReg3, tget_tset_of_ne csrInit s.csr h]

end

/-! ### The steps of reporting -/

/-- `t` follows from `s` by elementary steps of reporting: a status bit set, an entry or a count added, a flit put in the
record, or an INTR message sent to the port that INTR_ROUTE names (R322). -/
inductive Reports : State → State → Prop
  | refl (s : State) : Reports s s
  | trans {s t u : State} : Reports s t → Reports t u → Reports s u
  | setBit (s : State) {o : Nat} (h : o ≠ rIntrRoute) (n : Nat) : Reports s (s.setBit o n)
  | other {s t : State} (hcsr : t.csr = s.csr) (hlinks : t.links = s.links) (hout : t.out = s.out) : Reports s t
  | emit (s : State) (o : Out) : Reports s (s.emit o)
  | intr (s : State) {l : Nat} (hroute : s.bit rIntrRoute 10 = true) (hlink : (s.link l).state ≠ .detect) (m : Msg) :
    Reports s (s.sendRaw l m).2

section
variable {s t : State} (h : Reports s t)
include h

theorem Reports.out : s.out <+: t.out := by
  induction h with
  | refl | setBit => exact List.prefix_refl _
  | trans _ _ ih ih' => exact ih.trans ih'
  | other _ _ hout => exact hout ▸ List.prefix_refl _
  | emit => exact List.prefix_append _ _
  | intr u _ _ m => exact u.sendRaw_out _ m

theorem Reports.link_core (l : Nat) (hl : (s.link l).state ≠ .detect) : (t.link l).core = (s.link l).core := by
  induction h with
  | refl | setBit | emit => rfl
  | @trans s t _ _ _ ih ih' =>
    have hstate : (t.link l).core.state = (s.link l).core.state := congrArg Link.state (ih hl)
    exact (ih' (fun hd => hl (hstate.symm.trans hd))).trans (ih hl)
  | other _ hlinks => simp only [State.link, hlinks]
  | intr u _ hlink m => exact u.sendRaw_link_core hlink m l

/-- No INTR message is sent while INTR_ROUTE is not valid. -/
theorem Reports.unrouted (hroute : s.bit rIntrRoute 10 = false) : t.links = s.links ∧ t.bit rIntrRoute 10 = false := by
  induction h with
  | refl | emit => exact ⟨rfl, hroute⟩
  | trans _ _ ih ih' =>
    obtain ⟨hlinks, hbit⟩ := ih hroute
    obtain ⟨hlinks', hbit'⟩ := ih' hbit
    exact ⟨hlinks'.trans hlinks, hbit'⟩
  | setBit u ho => exact ⟨rfl, (u.setBit_bit_other ho.symm _ _).trans hroute⟩
  | other hcsr hlinks => exact ⟨hlinks, by simpa [State.bit, State.fld, State.reg, State.reg3, hcsr] using hroute⟩
  | intr _ hvalid => simp [hroute] at hvalid

end

/-! ### Each operation of reporting is made of such steps -/

section
variable (s : State)

/-- Reporting that starts beside a change of the log, the event FIFO, a counter or a tally. -/
theorem Reports.since {s t u : State} (h : Reports t u) (hcsr : t.csr = s.csr) (hlinks : t.links = s.links)
    (hout : t.out = s.out) : Reports s u := .trans (.other hcsr hlinks hout) h

theorem Reports.pushLog (e : LogEnt) : Reports s (s.pushLog e) := by
  unfold State.pushLog
  repeat' split
  · exact .other rfl rfl rfl
  · exact .other rfl rfl rfl
  · exact (Reports.setBit _ (o := rSafErr) (by decide) _).since rfl rfl rfl

theorem Reports.driveAlert : Reports s s.driveAlert := by
  unfold State.driveAlert
  dsimp only
  split
  · exact .refl s
  · exact (Reports.emit _ _).since rfl rfl rfl

section
variable {rise : State → State} (hrise : ∀ u, Reports u (rise u))
include hrise

theorem Reports.pushEvtBy (e : LogEnt) : Reports s (s.pushEvtBy rise e) := by
  unfold State.pushEvtBy
  dsimp only
  repeat' split
  · exact (hrise _).since rfl rfl rfl
  · exact .other rfl rfl rfl
  · exact .setBit s (o := rEvtStatus) (by decide) _

theorem Reports.ovfLogBy (n : Nat) : Reports s (s.ovfLogBy rise n) :=
  (Reports.pushLog s _).trans (Reports.pushEvtBy _ hrise _)

end

section
variable {note : Nat → State → State} (hnote : ∀ n u, Reports u (note n u))
include hnote

theorem Reports.bumpBy (n k : Nat) : Reports s (s.bumpBy note n k) := by
  have ho : (if n < 32 then rCntOvfLo else rCntOvfHi) ≠ rIntrRoute := by split <;> decide
  unfold State.bumpBy
  dsimp only
  generalize (if n < 32 then rCntOvfLo else rCntOvfHi) = o at ho ⊢
  repeat' split
  · exact .other rfl rfl rfl
  · exact .other rfl rfl rfl
  · exact ((Reports.setBit _ ho _).trans (hnote _ _)).since rfl rfl rfl
  · exact (Reports.setBit _ ho _).since rfl rfl rfl

theorem Reports.countFlits (l k : Nat) : Reports s (s.countFlits note l k) := by
  unfold State.countFlits
  split
  · exact .refl s
  · next hon =>
    clear hon
    generalize cntListed s = ns
    induction ns generalizing s with
    | nil => exact .refl s
    | cons n ns ih =>
      rw [List.foldl_cons]
      refine .trans ?_ (ih _)
      split
      · exact Reports.bumpBy s hnote n k
      · exact .refl s

theorem Reports.sendIntrBy (src sub : Nat) : Reports s (s.sendIntrBy note src sub) := by
  unfold State.sendIntrBy
  dsimp only
  split
  · next h =>
    obtain ⟨hroute, hstate⟩ := Bool.and_eq_true_iff.1 h
    have hlink : (s.link (s.fld rIntrRoute 0 10 / 64)).state ≠ .detect := by
      intro hd
      simp [hd, LinkState.asleep] at hstate
    exact (Reports.intr s hroute hlink _).trans (Reports.countFlits _ hnote _ _)
  · exact .refl s

theorem Reports.raiseBy (src sub : Nat) : Reports s (s.raiseBy note src sub) := by
  have hintr (u : State) : Reports u (if u.bit rIntrMask src then u.sendIntrBy note src sub else u) := by
    split
    · exact Reports.sendIntrBy u hnote src sub
    · exact .refl u
  have hibi (u : State) : Reports u (if u.bit rIntrMask (20 + src) && u.mgt.i3c.canIbi then u.emit u.intrIbi else u) := by
    split
    · exact .emit u _
    · exact .refl u
  unfold State.raiseBy
  split
  · exact .refl s
  · have hpend := Reports.setBit s (o := rIntrPend) (by decide) src
    exact ((hpend.trans (hintr _)).trans (hibi _)).trans (Reports.driveAlert _)

end

theorem Reports.ovfLog (n : Nat) : Reports s (State.ovfLog n s) :=
  Reports.ovfLogBy s (fun u => Reports.raiseBy u (fun m v => Reports.ovfLogBy v (fun w => .refl w) m) 1 0) n

theorem Reports.raise (src sub : Nat) : Reports s (s.raise src sub) :=
  Reports.raiseBy s (fun n u => Reports.ovfLog u n) src sub

theorem Reports.countCls (cls : Cls) : Reports s (s.countCls cls) := by
  cases cls with
  | info => exact .refl s
  | c => exact (Reports.raise _ 3 0).since rfl rfl rfl
  | p => exact (Reports.raise _ 4 0).since rfl rfl rfl
  | d => exact (Reports.raise _ 5 0).since rfl rfl rfl
  | x => exact (Reports.raise _ 6 0).since rfl rfl rfl
  | alarm => exact (Reports.raise _ 7 0).since rfl rfl rfl

theorem Reports.logEvent (block code : Nat) (cls : Cls) (port : Option Nat) (addr : Nat) (detail : BitVec 64) :
    Reports s (s.logEvent block code cls port addr detail) :=
  ((Reports.pushLog s _).trans (Reports.pushEvtBy _ (fun u => Reports.raise u 1 0) _)).trans (Reports.countCls _ _)

/-- An error report, of any register but INTR_ROUTE, is made of such steps (R330). -/
theorem Reports.err {o : Nat} (ho : o ≠ rIntrRoute) (block bit : Nat) (cls : Cls) (port : Option Nat) (addr : Nat)
    (detail : BitVec 64) : Reports s (s.err o block bit cls port addr detail) :=
  (Reports.setBit s ho bit).trans (Reports.logEvent _ _ _ _ _ _ _)

theorem Reports.countIn (code : Nat) (a : Attr) (k : Nat) (ns : List Nat) : Reports s (countIn code a k ns s) := by
  induction ns generalizing s with
  | nil => exact .refl s
  | cons n ns ih =>
    rw [Machine.countIn]
    refine .trans ?_ (ih _)
    split
    · exact Reports.bumpBy s (fun m u => Reports.ovfLog u m) n k
    · exact .refl s

/-- So is the count of an occurrence (R343). -/
theorem Reports.count (code : Nat) (a : Attr) (k : Nat) : Reports s (s.count code a k) := by
  unfold State.count
  dsimp only
  split
  · exact .other rfl rfl rfl
  · exact (Reports.countIn _ _ _ _ _).since rfl rfl rfl

end

end Sys2Proof.Machine
end

section
/-! SUPPORT. What the operations on one link do where nothing on it waits (R44 to R51, R65 to R67): the flush after an
acknowledgment, replays, returns of tolls and sleep. -/
namespace Sys2Proof.Machine

/-! ### The acknowledgment (R44) -/

section
variable (k : Link) (f : Flit)

@[simp] theorem Link.ack_state : (k.ack f).state = k.state := by unfold Link.ack; split <;> rfl
@[simp] theorem Link.ack_rxExp : (k.ack f).rxExp = k.rxExp := by unfold Link.ack; split <;> rfl
@[simp] theorem Link.ack_assembly : (k.ack f).assembly = k.assembly := by unfold Link.ack; split <;> rfl
@[simp] theorem Link.ack_txWait : (k.ack f).txWait = k.txWait := by unfold Link.ack; split <;> rfl
@[simp] theorem Link.ack_wbDone : (k.ack f).wbDone = k.wbDone := by unfold Link.ack; split <;> rfl

end

section
variable (s : State) {l : Nat}

/-- Where no message and no CMP waits for the link, nothing follows an acknowledgment. -/
theorem State.flush_setLink {k : Link} (hk : k.state ≠ .detect) (hwait : k.txWait = []) (hdone : k.wbDone = []) :
    (s.setLink l k).flush l = s.setLink l k := by
  have hread := s.link_setLink_same (l := l) hk
  have hwait' : { k with txWait := [] } = k := by rw [← hwait]
  have hdone' : { k with wbDone := [] } = k := by rw [← hdone]
  have hlink : (s.setLink l k).flushLink l = s.setLink l k := by
    rw [State.flushLink, hread, hwait, hwait', s.setLink_setLink hk hk]
    rfl
  rw [State.flush, hlink, State.wbFlush, hread, hdone, hdone', s.setLink_setLink hk hk]
  rfl

/-! ### Replay (R46, R47) -/

theorem State.resendAll_eq (fs : List TxFlit) :
    s.resendAll l fs = { s with out := s.out ++ fs.map (fun r => .resend l r.seq (s.link l).txAck) } := by
  induction fs generalizing s with
  | nil => simp [State.resendAll, forEach]
  | cons r fs ih =>
    have hstep : s.resendAll l (r :: fs) = (s.emit (.resend l r.seq (s.link l).txAck)).resendAll l fs := rfl
    rw [hstep, ih]
    simp [State.emit, State.link]

theorem rLnkErr_ne_rIntrRoute (l : Fin 16) : rLnkErr l.val ≠ rIntrRoute := by
  simp only [rLnkErr, rIntrRoute]
  omega

/-- A replay that does not retrain, while no INTR message goes out: the flits from the named one leave in order, the record
of the replay follows them, and the link only counts the replay. -/
theorem State.replayFrom_of_unrouted {l : Fin 16} (from_ : TxFlit → Bool) (hk : (s.link l.val).state ≠ .detect)
    (hrun : (s.link l.val).replayRun + 1 < 8) (hroute : s.bit rIntrRoute 10 = false) :
    ∃ (u : State) (post : List Out), s.replayFrom l.val from_ =
        u.setLink l.val { s.link l.val with replayRun := (s.link l.val).replayRun + 1 } ∧
      u.out = s.out ++ ((s.link l.val).replayBuf.dropWhile (fun r => !(from_ r))).map
        (fun r => .resend l.val r.seq (s.link l.val).txAck) ++ post := by
  have hcalc := s.resendAll_eq (l := l.val) ((s.link l.val).replayBuf.dropWhile (fun r => !(from_ r)))
  generalize hsent : s.resendAll l.val ((s.link l.val).replayBuf.dropWhile (fun r => !(from_ r))) = sent at hcalc
  have hrep : Reports sent ((sent.count 0x05 { link := some l.val }).err (rLnkErr l.val) 1 1 .c (linkPort l.val) 0) :=
    (Reports.count sent _ _ _).trans (Reports.err _ (rLnkErr_ne_rIntrRoute l) _ _ _ _ _ _)
  generalize hu : (sent.count 0x05 { link := some l.val }).err (rLnkErr l.val) 1 1 .c (linkPort l.val) 0 = u at hrep
  have hlink : u.link l.val = s.link l.val := by
    simp only [State.link, (hrep.unrouted (by subst hcalc; exact hroute)).1, hcalc]
  obtain ⟨post, hpost⟩ := hrep.out
  refine ⟨u, post, ?_, by rw [← hpost, hcalc]⟩
  have hread : (u.setLink l.val { s.link l.val with replayRun := (s.link l.val).replayRun + 1 }).link l.val = _ :=
    u.link_setLink_same hk
  unfold State.replayFrom
  dsimp only
  rw [hsent, hu, hlink, hread, if_neg (Nat.not_le.2 hrun)]

/-! ### Sleep (R65, R67) -/

theorem Link.quiet_iff {k : Link} :
    k.quiet = true ↔
      (k.replayBuf = [] ∧ k.txWait = [] ∧ k.wbDone = []) ∧ ∀ c ∈ classes5, k.rxFreed.get c = 0 := by
  simp [Link.quiet, and_assoc]

theorem sleepState_ne_detect (n : Nat) : sleepState n ≠ .detect := by
  unfold sleepState
  split <;> simp

theorem State.enterSleep_of_quiet (h : (s.link l).quiet = true) (n : Nat) :
    s.enterSleep l n = s.setLink l { s.link l with state := sleepState n, pwrOut := none } := by
  obtain ⟨⟨hbuf, hwait, hdone⟩, -⟩ := Link.quiet_iff.1 h
  simp [State.enterSleep, hbuf, hwait, hdone]

theorem State.pwrAnswer_of_quiet {n : Nat} (h : (s.link l).quiet = true) (hout : (s.link l).pwrOut = none)
    (hn : n = 1 ∨ n = 2) : s.pwrAnswer l n = (s.linkOut l 3 [n]).enterSleep l n := by
  simp [State.pwrAnswer, h, hout, hn]

theorem State.pwrAnswer_of_busy {n : Nat} (h : (s.link l).quiet = false) : s.pwrAnswer l n = s.linkOut l 4 [n] := by
  simp [State.pwrAnswer, h]

end

end Sys2Proof.Machine
end

section
/-! SUPPORT. Timers of a link and its wakes (R45, R46, R51, R65 to R68, R110). -/
namespace Sys2Proof.Machine

theorem LinkState.asleep_iff {x : LinkState} : x.asleep = true ↔ x = .sleepLight ∨ x = .sleepDeep := by
  cases x <;> simp [LinkState.asleep]

section
variable (s : State) {l : Fin 16}

theorem exec_replayTimeout (hact : (s.link l.val).state = .active) (hbuf : (s.link l.val).replayBuf ≠ []) :
    exec (.replayTimeout l) s = .next (s.replayFrom l.val (fun _ => true)).norm :=
  congrArg State.done (if_pos (by simp [State.carrying, hact, hbuf]))

theorem exec_lightIdleTimeout_of_no_deep (hact : (s.link l.val).state = .active) (hquiet : (s.link l.val).quiet = true)
    (hout : (s.link l.val).pwrOut = none) (hlight : s.lightFc l.val ≠ 0) (hdeep : s.deepFc l.val = 0) :
    exec (.lightIdleTimeout l) s = .next (s.askPower l.val 1).norm := by
  show execLightIdleTimeout l s = _
  simp only [execLightIdleTimeout, hact, hquiet, hout, hdeep]
  rw [if_pos (by simpa using hlight)]
  rfl

theorem exec_deepIdleTimeout_of_active (hact : (s.link l.val).state = .active) (hquiet : (s.link l.val).quiet = true)
    (hout : (s.link l.val).pwrOut = none) (hdeep : s.deepFc l.val ≠ 0) :
    exec (.deepIdleTimeout l) s = .next (s.askPower l.val 2).norm := by
  have hnone : ¬(s.deepFc l.val = 0 ∨ (s.link l.val).quiet = false ∨ (s.link l.val).pwrOut.isSome = true) := by
    simp [hdeep, hquiet, hout]
  show execDeepIdleTimeout l s = _
  simp only [execDeepIdleTimeout, if_neg hnone, beq_iff_eq.2 hact, if_true]
  rfl

theorem exec_linkWakeDone_of_no_deep (hasleep : (s.link l.val).state = .sleepLight ∨ (s.link l.val).state = .sleepDeep)
    (hwaking : (s.link l.val).waking = true) (hdeep : (s.link l.val).deepWake = false) :
    exec (.linkWakeDone l) s = .next ((s.setLink l.val { s.link l.val with
      state := .active, waking := false, deepWake := false }).flush l.val).norm := by
  show execLinkWakeDone l s = _
  simp only [execLinkWakeDone, LinkState.asleep_iff.2 hasleep, hwaking, hdeep, Bool.false_and, Bool.and_self, if_true]
  rfl

end

/-- Settles O19: each timer acts in its own condition; a replay timeout is a replay from the oldest flit. -/
theorem linkTimers : Obligations.LinkTimers := by
  refine ⟨fun s l => ?_, fun s l _ hact hbuf hrun hroute => ?_⟩
  · intro k
    refine ⟨fun hact hnak => ?_, exec_replayTimeout s, fun hact hfreed => ?_, exec_lightIdleTimeout_of_no_deep s,
      exec_deepIdleTimeout_of_active s, fun hasleep => ?_, exec_linkWakeDone_of_no_deep s, fun stop => rfl⟩
    · exact congrArg State.done (if_pos (Bool.and_eq_true_iff.2 ⟨beq_iff_eq.2 hact, hnak⟩))
    · have hany : classes5.any (fun c => k.rxFreed.get c != 0) = true :=
        List.any_eq_true.2 ⟨3, by decide, by simpa [Tolls.get] using hfreed⟩
      exact congrArg State.done (if_pos (Bool.and_eq_true_iff.2 ⟨beq_iff_eq.2 hact, hany⟩))
    · exact congrArg State.done (if_pos (LinkState.asleep_iff.2 hasleep))
  · have hk := LinkState.ne_detect_of_active hact
    obtain ⟨u, post, hreplay, hout⟩ := s.replayFrom_of_unrouted (fun _ => true) hk hrun hroute
    have hwhole : (s.link l.val).replayBuf.dropWhile (fun _ => !true) = (s.link l.val).replayBuf := by
      cases (s.link l.val).replayBuf <;> rfl
    have hread : (u.setLink l.val { s.link l.val with replayRun := (s.link l.val).replayRun + 1 }).link l.val = _ :=
      u.link_setLink_same hk
    refine ⟨_, (exec_replayTimeout s hact hbuf).trans (by rw [hreplay]), ?_⟩
    rw [State.norm_link, hread]
    exact ⟨rfl, rfl, hact, post, hout.trans (by rw [hwhole])⟩

end Sys2Proof.Machine
end

section
/-! SUPPORT. Flits from a link partner (R40 to R46, R51, R53, R65): what each kind of flit does once its CRC holds and its
acknowledgment is delivered. -/
namespace Sys2Proof.Machine

/-! ### Tolls returned (R51) -/

/-- The count of class `c` that a TOLL flit carries, modulo 4,096. -/
def tollCnt (f : Flit) (c : Nat) : Nat := (flitParam f (2 * c) + 256 * flitParam f (2 * c + 1)) % 4096

/-- The slots of class `c` that a TOLL flit returns beyond those returned before. -/
def Link.tollDiff (k : Link) (f : Flit) (c : Nat) : Nat := (tollCnt f c + 4096 - k.txRetSeen.get c) % 4096

/-- The link with the slots of a TOLL flit returned. -/
def Link.tollsReturned (k : Link) (f : Flit) : Link :=
  classes5.foldl (fun u c => { u with
    txAvail := u.txAvail.upd c (fun n => n + k.tollDiff f c)
    txRet := u.txRet.upd c (fun n => n + k.tollDiff f c)
    txRetSeen := u.txRetSeen.upd c (fun _ => tollCnt f c) }) k

section
variable (k : Link) (f : Flit)

theorem Link.tollsReturned_txWait : (k.tollsReturned f).txWait = k.txWait := rfl
theorem Link.tollsReturned_wbDone : (k.tollsReturned f).wbDone = k.wbDone := rfl

theorem Link.tollsReturned_get {c : Nat} (h : c ≤ 4) :
    (k.tollsReturned f).txRetSeen.get c = tollCnt f c ∧
      (k.tollsReturned f).txAvail.get c = k.txAvail.get c + k.tollDiff f c := by
  match c, h with
  | 0, _ => exact ⟨rfl, rfl⟩
  | 1, _ => exact ⟨rfl, rfl⟩
  | 2, _ => exact ⟨rfl, rfl⟩
  | 3, _ => exact ⟨rfl, rfl⟩
  | 4, _ => exact ⟨rfl, rfl⟩

end

/-- A return that does not go beyond the slots sent is no violation (R74). -/
theorem State.takeToll_of_within (s : State) {l : Nat} {f : Flit}
    (h : ∀ c, c ≤ 4 → (s.link l).txRet.get c + (s.link l).tollDiff f c ≤ (s.link l).txSent.get c) :
    s.takeToll l f = (s.setLink l ((s.link l).tollsReturned f)).flush l := by
  have hwithin : ¬(classes5.any (fun c =>
      decide ((s.link l).txSent.get c < (s.link l).txRet.get c + (s.link l).tollDiff f c)) = true) := by
    simp only [List.any_eq_true, decide_eq_true_eq, not_exists, not_and, Nat.not_lt]
    intro c hc
    exact h c (by simp [classes5] at hc; omega)
  exact if_neg hwithin

/-! ### IDLE and LINK flits in ACTIVE (R40, R44) -/

/-- The state after the acknowledgment of a flit: what waited for room in the replay buffer leaves (R44, R46). -/
def State.acked (s : State) (l : Nat) (f : Flit) : State := (s.setLink l ((s.link l).ack f)).flush l

/-- Where nothing waits for the link, the acknowledgment only shortens the replay buffer. -/
theorem State.acked_of_nothing_waiting (s : State) {l : Nat} (f : Flit) (hact : (s.link l).state = .active)
    (hwait : (s.link l).txWait = []) (hdone : (s.link l).wbDone = []) : s.acked l f = s.setLink l ((s.link l).ack f) :=
  s.flush_setLink (by simp [hact]) (by simp [hwait]) (by simp [hdone])

section
variable (s : State) {l : Fin 16} {f : Flit} (hact : (s.link l.val).state = .active) (hcrc : flitCrcOk f = true)
include hact hcrc

theorem State.rxCommon_of_ok {ok : Flit → Bool} (hop : ¬(flitType f = 2 ∧ 4 < flitLinkOp f)) (hok : ok f = true)
    (body : State → State) : s.rxCommon l.val f ok body = body (s.setLink l.val ((s.link l.val).ack f)) := by
  simp [State.rxCommon, State.carrying, hact, hcrc, hop, hok]

theorem exec_idleFlit (htype : flitType f = 0) : exec (.idleFlit l f) s = .next (s.acked l.val f).norm :=
  congrArg State.done (s.rxCommon_of_ok hact hcrc (ok := fun f => flitType f == 0) (by simp [htype]) (beq_iff_eq.2 htype) _)

theorem State.rxCommon_of_linkOp {n : Nat} (htype : flitType f = 2) (hop : flitLinkOp f = n) (hn : n ≤ 4)
    (body : State → State) : s.rxCommon l.val f (isLinkOp n) body = body (s.setLink l.val ((s.link l.val).ack f)) :=
  s.rxCommon_of_ok hact hcrc (by omega) (by simp [isLinkOp, htype, hop]) body

variable (htype : flitType f = 2)
include htype

theorem exec_toll (hop : flitLinkOp f = 0) : exec (.toll l f) s = .next ((s.acked l.val f).takeToll l.val f).norm :=
  congrArg State.done (s.rxCommon_of_linkOp hact hcrc htype hop (by decide) _)

theorem exec_nak (hop : flitLinkOp f = 1) :
    exec (.nak l f) s = .next (((s.setLink l.val ((s.link l.val).ack f)).replayFrom l.val
      (fun r => r.seq == (flitParam f 0 + 256 * flitParam f 1) % 1024)).flush l.val).norm :=
  congrArg State.done (s.rxCommon_of_linkOp hact hcrc htype hop (by decide) _)

theorem exec_pwrReq (hop : flitLinkOp f = 2) :
    exec (.pwrReq l f) s = .next ((s.acked l.val f).pwrAnswer l.val (flitParam f 0)).norm :=
  congrArg State.done (s.rxCommon_of_linkOp hact hcrc htype hop (by decide) _)

theorem exec_pwrAck (hop : flitLinkOp f = 3) {m : Nat} (hm : ((s.acked l.val f).link l.val).pwrOut = some m) :
    exec (.pwrAck l f) s = .next ((s.acked l.val f).enterSleep l.val m).norm := by
  have hm' : (((s.setLink l.val ((s.link l.val).ack f)).flush l.val).link l.val).pwrOut = some m := hm
  show execPwrAck l f s = _
  simp only [execPwrAck, s.rxCommon_of_linkOp hact hcrc htype hop (Nat.le_succ 3), hm']
  rfl

theorem exec_pwrNak (hop : flitLinkOp f = 4) :
    exec (.pwrNak l f) s =
      .next ((s.acked l.val f).setLink l.val { (s.acked l.val f).link l.val with pwrOut := none }).norm :=
  congrArg State.done (s.rxCommon_of_linkOp hact hcrc htype hop (by decide) _)

end

/-! ### MSG flits in ACTIVE (R45, R53) -/

section
variable (s : State) {l : Fin 16} {f : Flit} (hact : (s.link l.val).state = .active)
include hact

theorem exec_msgFlit_of_bad_crc (hcrc : flitCrcOk f = false) : exec (.msgFlit l f) s = .next (s.crcFail l.val).norm := by
  have hmsg : s.rxMsgFlit l.val f = s.crcFail l.val := by simp [State.rxMsgFlit, State.carrying, hact, hcrc]
  exact congrArg State.done hmsg

/-- A MSG flit with a good CRC goes by its place against the expected number. -/
theorem exec_msgFlit (hcrc : flitCrcOk f = true) (htype : flitType f = 1) :
    exec (.msgFlit l f) s =
      let u := s.acked l.val f
      let behind := ((u.link l.val).rxExp + 1024 - flitSeq f) % 1024
      .next (if behind = 0 then u.rxAccept l.val f else if behind ≤ 512 then u
        else if (u.link l.val).nakOut then u else u.sendNak l.val).norm := by
  show execMsgFlit l f s = _
  simp only [execMsgFlit, State.rxMsgFlit, State.carrying, hact, hcrc, htype, beq_self_eq_true, Bool.not_true,
    Bool.false_eq_true, if_false, ne_eq, not_true_eq_false]
  rfl

end

/-- A flit is accepted: the expected number advances, an acknowledgment is owed, and the flit is counted (R44, R45). -/
def State.rxCounted (s : State) (l : Nat) : State :=
  (s.setLink l { s.link l with rxExp := ((s.link l).rxExp + 1) % 1024, rxAckVld := true, nakOut := false }).count 0x02
    { link := some l }

/-- After the flit's slots an IDLE flit carries the acknowledgment when nothing else has left on the link (R44). -/
def State.ackIdle (s : State) (l n : Nat) : State :=
  if (s.out.drop n).all (fun o => !(o.onLink l)) && (s.link l).state == .active then s.emit (.idle l (s.link l).txAck) else s

section
variable (s : State) {l : Nat} {f : Flit}

theorem State.rxAccept_eq :
    s.rxAccept l f = (((s.rxCounted l).rxSlot l (flitKind0 f) (flitSlot0 f)).rxSlot l (flitKind1 f) (flitSlot1 f)).ackIdle l
      s.out.length := rfl

theorem State.rxSlot_of_empty (w : MsgSlot) : s.rxSlot l 0 w = s := by simp [State.rxSlot]

/-- A header without data hands on its message at once (R53). -/
theorem State.rxSlot_of_header (hact : (s.link l).state = .active) (hnone : (s.link l).assembly = none) {w : MsgSlot}
    (hslots : s.hdrSlots l w = some 0) (hfault : s.hdrFault l w 0 = none) : s.rxSlot l 1 w = s.msgIn l w [] := by
  simp [State.rxSlot, hact, hnone, hslots, hfault]

@[simp] theorem State.ackIdle_link (n j : Nat) : (s.ackIdle l n).link j = s.link j := by
  unfold State.ackIdle
  split <;> rfl

@[simp] theorem State.ackIdle_queue (n q : Nat) : (s.ackIdle l n).queue q = s.queue q := by
  unfold State.ackIdle
  split <;> rfl

@[simp] theorem State.rxCounted_queue (q : Nat) : (s.rxCounted l).queue q = s.queue q := by
  have hqueues : (s.rxCounted l).queues = s.queues := (Reported.count _ _ _ _).queues
  simp only [State.queue, hqueues]

/-- The count of a flit leaves the link but for an INTR message that it may send. -/
theorem State.rxCounted_link_core (hact : (s.link l).state = .active) :
    ((s.rxCounted l).link l).core =
      Link.core { s.link l with rxExp := ((s.link l).rxExp + 1) % 1024, rxAckVld := true, nakOut := false } := by
  have hread := s.link_setLink_same (l := l)
    (v := { s.link l with rxExp := ((s.link l).rxExp + 1) % 1024, rxAckVld := true, nakOut := false }) (by simp [hact])
  exact ((Reports.count _ _ _ _).link_core l (by rw [hread]; simp [hact])).trans (by rw [hread])

/-- The link as it accepts a flit whose acknowledgment has been delivered. -/
theorem State.rxCounted_acked (hact : (s.link l).state = .active) :
    (s.setLink l ((s.link l).ack f)).rxCounted l = (s.setLink l { (s.link l).ack f with
      rxExp := ((s.link l).rxExp + 1) % 1024, rxAckVld := true, nakOut := false }).count 0x02 { link := some l } := by
  rw [State.rxCounted, s.link_setLink_same (by simp [hact]), s.setLink_setLink (by simp [hact]) (by simp [hact]),
    Link.ack_rxExp]

end

/-! ### The expected MSG flit on a link where nothing waits (R44, R45, R53) -/

section
variable (s : State) {l : Fin 16} {f : Flit} (hact : (s.link l.val).state = .active) (hcrc : flitCrcOk f = true)
  (htype : flitType f = 1) (hwait : (s.link l.val).txWait = []) (hdone : (s.link l.val).wbDone = [])
  (hseq : flitSeq f = (s.link l.val).rxExp)
include hact hcrc htype hwait hdone hseq

theorem exec_msgFlit_of_expected :
    exec (.msgFlit l f) s = .next ((s.setLink l.val ((s.link l.val).ack f)).rxAccept l.val f).norm := by
  have hbehind : (((s.setLink l.val ((s.link l.val).ack f)).link l.val).rxExp + 1024 - flitSeq f) % 1024 = 0 := by
    rw [s.link_setLink_same (by simp [hact]), Link.ack_rxExp, hseq, Nat.add_sub_cancel_left]
  rw [exec_msgFlit s hact hcrc htype, s.acked_of_nothing_waiting f hact hwait hdone]
  exact congrArg State.done (if_pos hbehind)

/-- An empty MSG flit is accepted, and the link goes on with what it was assembling. -/
theorem exec_msgFlit_of_empty (hkind0 : flitKind0 f = 0) (hkind1 : flitKind1 f = 0) :
    ∃ t, exec (.msgFlit l f) s = .next t ∧ (t.link l.val).rxExp = ((s.link l.val).rxExp + 1) % 1024 ∧
      (t.link l.val).rxAckVld = true ∧ (t.link l.val).nakOut = false ∧
      (t.link l.val).assembly = (s.link l.val).assembly ∧ (∀ q, t.queue q = s.queue q) := by
  have hread := s.link_setLink_same (l := l.val) (v := (s.link l.val).ack f) (by simp [hact])
  have hcore := State.rxCounted_link_core (s.setLink l.val ((s.link l.val).ack f)) (l := l.val) (by simp [hread, hact])
  rw [hread] at hcore
  refine ⟨_, exec_msgFlit_of_expected s hact hcrc htype hwait hdone hseq, ?_⟩
  rw [State.norm_link, State.rxAccept_eq, hkind0, hkind1, State.rxSlot_of_empty, State.rxSlot_of_empty, State.ackIdle_link]
  refine ⟨(congrArg Link.rxExp hcore).trans ?_, congrArg Link.rxAckVld hcore, congrArg Link.nakOut hcore,
    (congrArg Link.assembly hcore).trans ?_, fun q => ?_⟩
  · simp [Link.core]
  · simp [Link.core]
  · rw [State.norm_queue, State.ackIdle_queue, State.rxCounted_queue]
    rfl

/-- A header without data, alone in its flit, hands on its message. -/
theorem exec_msgFlit_of_header (hkind0 : flitKind0 f = 1) (hkind1 : flitKind1 f = 0)
    (hnone : (s.link l.val).assembly = none) {u : State}
    (hu : (s.setLink l.val { (s.link l.val).ack f with
      rxExp := ((s.link l.val).rxExp + 1) % 1024, rxAckVld := true, nakOut := false }).count 0x02 { link := some l.val } = u)
    (hslots : u.hdrSlots l.val (flitSlot0 f) = some 0) (hfault : u.hdrFault l.val (flitSlot0 f) 0 = none) :
    exec (.msgFlit l f) s = .next ((u.msgIn l.val (flitSlot0 f) []).ackIdle l.val s.out.length).norm := by
  have hread := s.link_setLink_same (l := l.val) (v := (s.link l.val).ack f) (by simp [hact])
  have hcore := State.rxCounted_link_core (s.setLink l.val ((s.link l.val).ack f)) (l := l.val) (by simp [hread, hact])
  rw [State.rxCounted_acked s hact, hu, hread] at hcore
  have hstate : (u.link l.val).state = .active := (congrArg Link.state hcore).trans (by simp [Link.core, hact])
  have hassembly : (u.link l.val).assembly = none := (congrArg Link.assembly hcore).trans (by simp [Link.core, hnone])
  rw [exec_msgFlit_of_expected s hact hcrc htype hwait hdone hseq, State.rxAccept_eq, hkind0, hkind1, State.rxSlot_of_empty,
    State.rxCounted_acked s hact, hu, u.rxSlot_of_header hstate hassembly hslots hfault]
  rfl

end

/-! ### LINK flits on a link where nothing waits (R46, R51, R65) -/

section
variable (s : State) {l : Fin 16} {f : Flit} (hact : (s.link l.val).state = .active) (hcrc : flitCrcOk f = true)
  (htype : flitType f = 2) (hwait : (s.link l.val).txWait = []) (hdone : (s.link l.val).wbDone = [])
include hact hcrc htype hwait hdone

/-- A TOLL flit returns tolls, and no more. -/
theorem exec_toll_of_within (hop : flitLinkOp f = 0)
    (hwithin : ∀ c, c ≤ 4 → ((s.link l.val).ack f).txRet.get c + ((s.link l.val).ack f).tollDiff f c ≤
      ((s.link l.val).ack f).txSent.get c) :
    exec (.toll l f) s = .next (s.setLink l.val (((s.link l.val).ack f).tollsReturned f)).norm := by
  have hk : ((s.link l.val).ack f).state ≠ .detect := by simp [hact]
  have hread := s.link_setLink_same (l := l.val) hk
  have hk' : (((s.link l.val).ack f).tollsReturned f).state ≠ .detect := hk
  rw [exec_toll s hact hcrc htype hop, s.acked_of_nothing_waiting f hact hwait hdone,
    State.takeToll_of_within _ (by rw [hread]; exact hwithin), hread, s.setLink_setLink hk hk',
    s.flush_setLink hk' (by simp [Link.tollsReturned_txWait, hwait]) (by simp [Link.tollsReturned_wbDone, hdone])]

/-- A NAK flit replays from the number that it names, and nothing new follows. -/
theorem exec_nak_of_unrouted (hop : flitLinkOp f = 1) (hrun : ((s.link l.val).ack f).replayRun < 7)
    (hroute : s.bit rIntrRoute 10 = false) :
    ∃ (u : State) (post : List Out), exec (.nak l f) s = .next (u.setLink l.val { (s.link l.val).ack f with
        replayRun := ((s.link l.val).ack f).replayRun + 1 }).norm ∧
      u.out = s.out ++ (((s.link l.val).ack f).replayBuf.dropWhile
        (fun r => r.seq != (flitParam f 0 + 256 * flitParam f 1) % 1024)).map
          (fun r => .resend l.val r.seq ((s.link l.val).ack f).txAck) ++ post := by
  have hk : ((s.link l.val).ack f).state ≠ .detect := by simp [hact]
  have hread := s.link_setLink_same (l := l.val) hk
  obtain ⟨u, post, hreplay, hout⟩ := (s.setLink l.val ((s.link l.val).ack f)).replayFrom_of_unrouted (l := l)
    (fun r => r.seq == (flitParam f 0 + 256 * flitParam f 1) % 1024) (by rw [hread]; exact hk)
    (by rw [hread]; exact Nat.succ_lt_succ hrun) hroute
  rw [hread] at hreplay hout
  refine ⟨u, post, ?_, hout⟩
  rw [exec_nak s hact hcrc htype hop, hreplay]
  exact congrArg State.done (u.flush_setLink (by exact hk) (by simp [hwait]) (by simp [hdone]))

/-- A quiet link sleeps once its partner has asked for it. -/
theorem exec_pwrReq_of_quiet (hop : flitLinkOp f = 2) (hquiet : ((s.link l.val).ack f).quiet = true)
    (hout : ((s.link l.val).ack f).pwrOut = none) (hn : flitParam f 0 = 1 ∨ flitParam f 0 = 2) :
    exec (.pwrReq l f) s = .next (((s.setLink l.val ((s.link l.val).ack f)).linkOut l.val 3 [flitParam f 0]).setLink l.val
      { (s.link l.val).ack f with state := sleepState (flitParam f 0), pwrOut := none }).norm := by
  have hread := s.link_setLink_same (l := l.val) (v := (s.link l.val).ack f) (by simp [hact])
  rw [exec_pwrReq s hact hcrc htype hop, s.acked_of_nothing_waiting f hact hwait hdone,
    State.pwrAnswer_of_quiet _ (by rw [hread]; exact hquiet) (by rw [hread]; exact hout) hn,
    State.enterSleep_of_quiet _ (by rw [State.linkOut_link, hread]; exact hquiet), State.linkOut_link, hread]

/-- A quiet link enters the state that it asked for. -/
theorem exec_pwrAck_of_quiet (hop : flitLinkOp f = 3) (hquiet : ((s.link l.val).ack f).quiet = true) {m : Nat}
    (hm : ((s.link l.val).ack f).pwrOut = some m) :
    exec (.pwrAck l f) s = .next ((s.setLink l.val ((s.link l.val).ack f)).setLink l.val
      { (s.link l.val).ack f with state := sleepState m, pwrOut := none }).norm := by
  have hread := s.link_setLink_same (l := l.val) (v := (s.link l.val).ack f) (by simp [hact])
  have hacked := s.acked_of_nothing_waiting f hact hwait hdone
  rw [exec_pwrAck s hact hcrc htype hop (by rw [hacked, hread]; exact hm), hacked,
    State.enterSleep_of_quiet _ (by rw [hread]; exact hquiet), hread]

end

/-! ### The statement -/

/-- Settles O18: a flit is judged by its CRC, its kind and, for a MSG flit, its place against the expected number, after its
acknowledgment; where nothing waits for the link the acknowledgment only shortens the replay buffer. -/
theorem flitsReceived : Obligations.FlitsReceived := by
  refine ⟨fun s l f hact => ?msg, fun s l f hact hcrc => ?other, fun s l f _ hact hcrc hwait hdone => ?quiet⟩
  case msg =>
    refine ⟨exec_msgFlit_of_bad_crc s hact, fun hcrc htype h => ?_, exec_msgFlit_of_empty s hact,
      fun _ hcrc htype hwait hdone hseq hkind0 hkind1 hnone => ?_, fun hcrc htype hpos hle => ?_,
      fun hcrc htype hahead hnak => ?_⟩
    · exact (exec_msgFlit s hact hcrc htype).trans (congrArg State.done (if_pos h))
    · exact exec_msgFlit_of_header s hact hcrc htype hwait hdone hseq hkind0 hkind1 hnone rfl
    · exact (exec_msgFlit s hact hcrc htype).trans
        (congrArg State.done ((if_neg (Nat.ne_of_gt hpos)).trans (if_pos hle)))
    · exact (exec_msgFlit s hact hcrc htype).trans (congrArg State.done
        ((if_neg (Nat.ne_of_gt (Nat.zero_lt_of_lt hahead))).trans
          ((if_neg (Nat.not_le.2 hahead)).trans (if_neg (Bool.eq_false_iff.1 hnak)))))
  case other =>
    refine ⟨exec_idleFlit s hact hcrc, exec_toll s hact hcrc, exec_nak s hact hcrc, fun htype hop hquiet hout hn => ?_,
      fun htype hop hbusy => ?_, fun htype hop m hm => exec_pwrAck s hact hcrc htype hop hm, exec_pwrNak s hact hcrc⟩
    · exact (exec_pwrReq s hact hcrc htype hop).trans (congrArg State.done (State.pwrAnswer_of_quiet _ hquiet hout hn))
    · exact (exec_pwrReq s hact hcrc htype hop).trans (congrArg State.done (State.pwrAnswer_of_busy _ hbusy))
  case quiet =>
    intro k n
    have hk : k.state = .active := (Link.ack_state _ _).trans hact
    have hk' : k.state ≠ .detect := LinkState.ne_detect_of_active hk
    have hacked : s.acked l.val f = s.setLink l.val k := s.acked_of_nothing_waiting f hact hwait hdone
    have hread : (s.setLink l.val k).link l.val = k := s.link_setLink_same hk'
    refine ⟨fun htype => ?_, fun htype hop hwithin => ?_, fun htype hop hrun hroute => ?_,
      fun htype hop hquiet hout hn => ?_, fun htype hop hbusy => ?_, fun htype hop hquiet m hm => ?_, fun htype hop => ?_⟩
    · rw [exec_idleFlit s hact hcrc htype, hacked]
    · refine ⟨_, exec_toll_of_within s hact hcrc htype hwait hdone hop hwithin, ?_⟩
      rw [State.norm_link, s.link_setLink_same (by exact hk')]
      exact ⟨hk, fun c hc => k.tollsReturned_get f hc⟩
    · obtain ⟨u, post, hexec, hout⟩ := exec_nak_of_unrouted s hact hcrc htype hwait hdone hop hrun hroute
      refine ⟨_, hexec, ?_⟩
      rw [State.norm_link, u.link_setLink_same (by exact hk')]
      exact ⟨rfl, hk, rfl, post, hout⟩
    · refine ⟨_, exec_pwrReq_of_quiet s hact hcrc htype hwait hdone hop hquiet hout hn, ?_, ?_⟩
      · exact congrArg (fun u : Link => s.out ++ [.linkFlit l.val 3 [n] u.txAck]) hread
      · rw [State.norm_link]
        exact State.link_setLink_same _ (sleepState_ne_detect n)
    · rw [exec_pwrReq s hact hcrc htype hop, hacked, State.pwrAnswer_of_busy _ (by rw [hread]; exact hbusy)]
    · refine ⟨_, exec_pwrAck_of_quiet s hact hcrc htype hwait hdone hop hquiet hm, ?_⟩
      rw [State.norm_link]
      exact State.link_setLink_same _ (sleepState_ne_detect m)
    · rw [exec_pwrNak s hact hcrc htype hop, hacked, hread, s.setLink_setLink hk' (by exact hk')]

end Sys2Proof.Machine
end

section
/-! SUPPORT. The home slice of an address (R101) as parities of address bits. -/
namespace Sys2Proof.Machine

theorem regionNo_lineOf (a : Addr) : regionNo (lineOf a) = a.toNat / 2 ^ 12 := Nat.div_div_eq_div_mul a.toNat 128 32

theorem testBit_regionNo (a : Addr) (i : Nat) : (regionNo (lineOf a)).testBit i = a.getLsbD (12 + i) := by
  rw [regionNo_lineOf, Nat.testBit_div_two_pow, Nat.add_comm i 12, BitVec.testBit_toNat]

theorem natBit_eq_toNat_testBit (g i : Nat) : natBit g i = (g.testBit i).toNat := (Nat.toNat_testBit g i).symm

/-- The parity of the bits `g[i]`, i mod 3 = j, of a region number. -/
def regionParity (g j : Nat) : Bool :=
  ((List.range 25).filter (fun i => i % 3 == j)).foldl (fun x i => x ^^ g.testBit i) false

/-- One more bit added modulo 2 is one more XOR. -/
theorem toNat_add_natBit_mod_two (x : Bool) (g i : Nat) : (x.toNat + natBit g i) % 2 = (x ^^ g.testBit i).toNat := by
  rw [natBit_eq_toNat_testBit]
  cases x <;> cases g.testBit i <;> rfl

theorem foldl_natBit_eq_toNat_foldl_xor (g : Nat) (is : List Nat) (x : Bool) :
    is.foldl (fun p i => (p + natBit g i) % 2) x.toNat = (is.foldl (fun x i => x ^^ g.testBit i) x).toNat := by
  induction is generalizing x with
  | nil => rfl
  | cons i is ih => rw [List.foldl_cons, List.foldl_cons, toNat_add_natBit_mod_two, ih]

theorem sliceBit_eq_toNat_regionParity (g j : Nat) : sliceBit g j = (regionParity g j).toNat :=
  foldl_natBit_eq_toNat_foldl_xor g _ false

theorem testBit_of_three_bits : ∀ x y z : Bool,
    (x.toNat + 2 * y.toNat + 4 * z.toNat).testBit 0 = x ∧ (x.toNat + 2 * y.toNat + 4 * z.toNat).testBit 1 = y ∧
      (x.toNat + 2 * y.toNat + 4 * z.toNat).testBit 2 = z := by decide

section
variable (line : Nat)

theorem sliceOf_eq : sliceOf line = (regionParity (regionNo line) 0).toNat + 2 * (regionParity (regionNo line) 1).toNat +
    4 * (regionParity (regionNo line) 2).toNat := by
  simp only [sliceOf, sliceBit_eq_toNat_regionParity]

theorem testBit_sliceOf {j : Nat} (hj : j < 3) : (sliceOf line).testBit j = regionParity (regionNo line) j := by
  obtain ⟨h0, h1, h2⟩ := testBit_of_three_bits (regionParity (regionNo line) 0) (regionParity (regionNo line) 1)
    (regionParity (regionNo line) 2)
  rw [sliceOf_eq]
  match j, hj with
  | 0, _ => exact h0
  | 1, _ => exact h1
  | 2, _ => exact h2

theorem sliceOf_lt : sliceOf line < 8 := by
  have h0 := Bool.toNat_lt (regionParity (regionNo line) 0)
  have h1 := Bool.toNat_lt (regionParity (regionNo line) 1)
  have h2 := Bool.toNat_lt (regionParity (regionNo line) 2)
  rw [sliceOf_eq]
  omega

end

theorem sliceOf_congr {line line' : Nat} (h : regionNo line = regionNo line') : sliceOf line = sliceOf line' := by
  rw [sliceOf_eq, sliceOf_eq, h]

/-- Settles O31: a sum of bits modulo 2 is their XOR, the three slice bits keep apart, and the slice sees of a line its
region alone. -/
theorem homeSliceOfAddress : Obligations.HomeSliceOfAddress := by
  refine ⟨fun a j hj => ?_, fun a => sliceOf_lt _, fun a b h => sliceOf_congr ?_⟩
  · rw [testBit_sliceOf _ hj, regionParity]
    simp only [testBit_regionNo]
  · exact (regionNo_lineOf a).trans (h.trans (regionNo_lineOf b).symm)

end Sys2Proof.Machine
end

section
/-! SUPPORT. Snoop answers, dead agents and recovery (R113, R114, R122, R126, R127). -/
namespace Sys2Proof.Machine

/-! ### The states that an answer may leave (R113, R114) -/

theorem stateAllowed_of_invalidates {op : BitVec 6} (hinv : invalidates op = true) (isData wb : Bool) (st : BitVec 2) :
    stateAllowed op isData wb st = true ↔ st = grI := by
  simp [stateAllowed, hinv]

section
variable {op : BitVec 6} (hinv : invalidates op = false) (wb : Bool) (st : BitVec 2)
include hinv

theorem stateAllowed_data_iff : stateAllowed op true wb st = true ↔ st = grS ∨ wb = true ∧ st = grI := by
  simp [stateAllowed, hinv]

theorem stateAllowed_ack_iff : stateAllowed op false wb st = true ↔ st = grI ∨ st = grS := by
  simp [stateAllowed, hinv]

end

theorem eq_grI_or_grS_of_stateAllowed {op : BitVec 6} {isData wb : Bool} {st : BitVec 2}
    (h : stateAllowed op isData wb st = true) : st = grI ∨ st = grS := by
  cases hinv : invalidates op with
  | true => exact .inl ((stateAllowed_of_invalidates hinv isData wb st).1 h)
  | false =>
    cases isData with
    | true => exact ((stateAllowed_data_iff hinv wb st).1 h).symm.imp_left And.right
    | false => exact (stateAllowed_ack_iff hinv wb st).1 h

section
variable (s : State)

/-! ### An answer to an outstanding snoop -/

section
variable {l : Nat} {r : Rsp} {key : Nat} {t : Slot} (hslot : s.snoopSlot l r = some (key, t))
include hslot

theorem State.snoopKnown_of_snoopSlot : s.snoopKnown l r = true := by
  simp [State.snoopKnown, hslot]

/-- An answer that its link may send, and that its receive buffer has room for, takes effect once its slots are free. -/
theorem State.rspIn_of_snoopSlot {c n : Nat} (hact : (s.link l).state = .active)
    (hstream : r.stream.toNat ≤ (s.link l).streamCntM1) (hstatus : r.status.toNat ≤ 5)
    (hroom : (s.link l).rxHeld.get c + (s.link l).rxFreed.get c + n ≤ devAdv c) (body : State → State) :
    s.rspIn l c n r (s.snoopKnown l r) body = body (s.freeSlots l c n) := by
  rw [s.snoopKnown_of_snoopSlot hslot, State.rspIn_of_allowed hact hroom (State.rspBad_eq_false hstream hstatus)]

theorem State.snpAck_of_allowed (hst : stateAllowed t.snpOp false false r.state = true) {t' : Slot}
    (ht' : ((ringAll (linkStop l) 1 [(0, [homeStop (key / 512)], 1)] s).snoopClosed l key t).slot key = some t') :
    s.snpAck l r = (((ringAll (linkStop l) 1 [(0, [homeStop (key / 512)], 1)] s).snoopClosed l key t).ackOne key t' l
      (r.state == grS) false).settle := by
  simp only [State.snpAck, hslot, hst, ht', Bool.not_true, Bool.false_eq_true, if_false]

theorem State.snpAck_of_not_allowed (hst : stateAllowed t.snpOp false false r.state = false) :
    s.snpAck l r = s.claim l 2 t.line := by
  simp only [State.snpAck, hslot, hst, Bool.not_false, if_true]

end

/-- No answer in time makes the agent dead, and its link is lost. -/
theorem State.snoopTimeout_of_outstanding {k l : Nat} {t : Slot} (hslot : s.slot k = some t)
    (hout : t.snpOut.getLsbD l = true) :
    s.snoopTimeout k l = ((({ s with home := { s.home with dead := s.home.dead ||| linkBit l } }).err rHomErr 3 0 .info
      (linkPort l) (lineAddr t.line)).raise 9 l).loseLink l .quarantine := by
  simp only [State.snoopTimeout, hslot, hout, Bool.not_true, Bool.false_eq_true, if_false]

/-! ### Recovery (R127) -/

theorem State.nextRecovery_of_none_listed (h : s.home.recovering = []) (slice : Nat) : s.nextRecovery slice = none := by
  simp [State.nextRecovery, h]

theorem recoverUp_of_none_listed (h : s.home.recovering = []) (slice n : Nat) : recoverUp slice n s = s := by
  cases n with
  | zero => rfl
  | succ n => simp [recoverUp, s.nextRecovery_of_none_listed h]

end

/-! ### The statement -/

/-- Settles O34: an answer to a snoop that is outstanding is known, so that it takes effect; the state that it leaves decides
between the transaction and a claim. -/
theorem snoopAnswers : Obligations.SnoopAnswers := by
  refine ⟨fun s l r slots key t => ⟨fun hact hstream hstatus hslot hroom => ?ack,
      fun hact hstream hstatus hslot hroom => ?data, fun hslot hst t' ht' => s.snpAck_of_allowed hslot hst ht',
      fun hslot hst => s.snpAck_of_not_allowed hslot hst,
      fun slot hslot hout => congrArg State.done (s.snoopTimeout_of_outstanding hslot hout), fun _ => rfl⟩,
    fun s slice n h => recoverUp_of_none_listed s h slice n, fun op isData wb st hst => ?states⟩
  case ack => exact congrArg State.done (s.rspIn_of_snoopSlot hslot hact hstream hstatus hroom _)
  case data => exact congrArg State.done (s.rspIn_of_snoopSlot hslot hact hstream hstatus hroom _)
  case states =>
    have hIS := eq_grI_or_grS_of_stateAllowed hst
    refine ⟨?_, ?_, fun hinv => ?_, fun hinv hdata hwb => ?_⟩
    · rintro rfl
      exact absurd hIS (by decide)
    · rintro rfl
      exact absurd hIS (by decide)
    · exact (stateAllowed_of_invalidates hinv isData wb st).1 hst
    · subst hdata hwb
      exact ((stateAllowed_data_iff hinv false st).1 hst).resolve_right (fun h => Bool.false_ne_true h.1)

end Sys2Proof.Machine
end

section
/-! SUPPORT. Answers in queue order and the end of a FENCE (R54, R137, R142 to R145): the tag that an answer frees, a message
that its link can take, and what the fence logic leaves. -/
namespace Sys2Proof.Machine

/-! ### Reads of one table that an update left or wrote -/

section
variable {s t : State}

theorem State.port_congr (h : t.ports = s.ports) (p : Nat) : t.port p = s.port p := by simp only [State.port, h]

theorem State.queue_congr (h : t.queues = s.queues) (q : Nat) : t.queue q = s.queue q := by simp only [State.queue, h]

theorem State.twf_ports (h : s.tablesWf = true) : twf portDef s.ports = true := by
  simp only [State.tablesWf, Bool.and_eq_true] at h
  simp [h]

theorem State.twf_queues (h : s.tablesWf = true) : twf queueDef s.queues = true := by
  simp only [State.tablesWf, Bool.and_eq_true] at h
  simp [h]

/-- The canonical form leaves a home that comes from a state in canonical form as it was. -/
theorem State.norm_home_of_eq (hwf : s.tablesWf = true) (h : t.home = s.home) : t.norm.home = s.home := by
  calc t.norm.home = s.norm.home := by simp only [State.norm, h]
    _ = s.home := by rw [State.norm_eq s hwf]

theorem State.norm_mem_of_eq (hwf : s.tablesWf = true) (h : t.mem = s.mem) : t.norm.mem = s.mem := by
  calc t.norm.mem = s.norm.mem := by simp only [State.norm, h]
    _ = s.mem := by rw [State.norm_eq s hwf]

theorem State.queue_answer (hwf : twf queueDef s.queues = true) (q id part : Nat) (r : PartRes) (j : Nat) :
    (s.answer q id part r).queue j = if j = q then { s.queue q with
      answers := (s.queue q).answers.map (fun a => if a.id == id then a.fill part r else a) } else s.queue j :=
  tget_tset queueDef s.queues q _ j hwf

end

/-! ### The tag that an answer carries (R54, R58) -/

theorem rspHdr_cls_le (op : BitVec 6) : (if op = opData then 3 else 2) ≤ 3 := by split <;> decide

theorem rspHdr_toNat (op : BitVec 6) (stream tc : Nat) (tag : BitVec 12) (status : BitVec 4) (st : BitVec 2) :
    (rspHdr op stream tc tag status st).toNat = (if op = opData then 3 else 2) + op.toNat * 2 ^ 3 + stream % 64 * 2 ^ 9 +
      tc % 8 * 2 ^ 15 + tag.toNat * 2 ^ 20 + status.toNat * 2 ^ 32 + st.toNat * 2 ^ 36 := by
  have hcls := rspHdr_cls_le op
  have hop := op.isLt
  have htag := tag.isLt
  have hstatus := status.isLt
  have hst := st.isLt
  simp only [rspHdr, BitVec.toNat_ofNat]
  omega

theorem rspHdr_opcode (op : BitVec 6) (stream tc : Nat) (tag : BitVec 12) (status : BitVec 4) (st : BitVec 2) :
    ((rspHdr op stream tc tag status st).extractLsb' 3 6).toNat = op.toNat := by
  have hcls := rspHdr_cls_le op
  have hop := op.isLt
  rw [BitVec.extractLsb'_toNat, rspHdr_toNat, Nat.shiftRight_eq_div_pow]
  omega

theorem rspHdr_tag (op : BitVec 6) (stream tc : Nat) (tag : BitVec 12) (status : BitVec 4) (st : BitVec 2) :
    ((rspHdr op stream tc tag status st).extractLsb' 20 12).toNat = tag.toNat := by
  have hcls := rspHdr_cls_le op
  have hop := op.isLt
  have htag := tag.isLt
  rw [BitVec.extractLsb'_toNat, rspHdr_toNat, Nat.shiftRight_eq_div_pow]
  omega

/-- An answer, a DATA or a CMP, answers the request with its tag and no other. -/
theorem Ans.msg_answers (a : Ans) (p tc tag : Nat) : (a.msg p tc).answers tag = (a.tag.toNat == tag) := by
  unfold Ans.msg
  split
  · simp only [Msg.answers, Msg.opcode, rspHdr_opcode, rspHdr_tag]
    simp [opData]
  · simp only [Msg.answers, Msg.opcode, rspHdr_opcode, rspHdr_tag]
    simp [opCmp]

/-! ### A message that its link can take (R48, R49) -/

section
variable {s : State} {l : Nat} {m : Msg}

theorem Link.active_of_canSend {k : Link} (h : k.canSend m = true) : k.state = .active := by
  simp only [Link.canSend, Bool.and_eq_true, beq_iff_eq] at h
  obtain ⟨⟨hact, -⟩, -⟩ := h
  exact hact

/-- Its flits are counted once it has left (R344). -/
theorem Reports.sendMsg_of_sendRaw : Reports (s.sendRaw l m).2 (s.sendMsg l m) := by
  unfold State.sendMsg
  dsimp only
  split
  · exact .refl _
  · exact Reports.count _ _ _ _

section
variable (hcan : (s.link l).canSend m = true) (hclear : (s.link l).classClear m = true)
include hcan hclear

theorem State.sendRaw_of_canSend :
    (s.sendRaw l m).2 = ((s.setLink l ((s.link l).send (s.txHalf.contains l) m)).setHalf l
      (halfAfter (s.txHalf.contains l) m.slots)).emit (.msg l m (s.link l).txAck) := by
  simp [State.sendRaw, hcan, hclear]

/-- The message is in the record as it left, with the acknowledgment of its link. -/
theorem State.mem_sendMsg_out : .msg l m (s.link l).txAck ∈ (s.sendMsg l m).out := by
  refine Reports.sendMsg_of_sendRaw.out.subset ?_
  rw [State.sendRaw_of_canSend hcan hclear]
  exact List.mem_append_right _ List.mem_cons_self

theorem State.sendMsg_link (hroute : s.bit rIntrRoute 10 = false) :
    (s.sendMsg l m).link l = (s.link l).send (s.txHalf.contains l) m := by
  have hraw := State.sendRaw_of_canSend hcan hclear
  have hroute' : (s.sendRaw l m).2.bit rIntrRoute 10 = false := by rw [hraw]; exact hroute
  calc (s.sendMsg l m).link l = (s.sendRaw l m).2.link l := by
        simp only [State.link, (Reports.sendMsg_of_sendRaw.unrouted hroute').1]
    _ = (s.setLink l ((s.link l).send (s.txHalf.contains l) m)).link l := by rw [hraw]; rfl
    _ = _ := by
        have hstate : (s.link l).state ≠ .detect := LinkState.ne_detect_of_active (Link.active_of_canSend hcan)
        exact s.link_setLink_same (v := (s.link l).send (s.txHalf.contains l) m) hstate

end

end

/-! ### The oldest answer of a queue (R137, R142) -/

/-- The count of an answer whose status is POISON or BUS_ERR. -/
def State.countAns (s : State) (q : Nat) (a : Ans) : State :=
  let at_ : Attr := { req := some (q / 8, a.priv.toNat, q % 8), addr := some a.addr.toNat }
  if a.status == stPoison then s.count 0x38 at_ else if a.status == stBusErr then s.count 0x3B at_ else s

theorem Reports.countAns (s : State) (q : Nat) (a : Ans) : Reports s (s.countAns q a) := by
  unfold State.countAns
  dsimp only
  repeat' split
  · exact Reports.count s _ _ _
  · exact Reports.count s _ _ _
  · exact .refl s

theorem Reported.countAns (s : State) (q : Nat) (a : Ans) : Reported s (s.countAns q a) := by
  unfold State.countAns
  dsimp only
  repeat' split
  · exact Reported.count s _ _ _
  · exact Reported.count s _ _ _
  · exact .refl s

/-- Where no CMP of a WB_FULL waits for the link, the flush before an answer does nothing. -/
theorem State.wbFlush_of_none_waiting {s : State} {l : Nat} (hwf : s.tablesWf = true) (h : (s.link l).wbDone = []) :
    s.wbFlush l = s := by
  have hlinks : twf linkDef s.links = true := (s.repWf_of hwf).2.1
  have hk : { s.link l with wbDone := [] } = s.link l := by rw [← h]
  calc s.wbFlush l = s.setLink l { s.link l with wbDone := [] } := by rw [State.wbFlush, h]; rfl
    _ = s.setLink l (s.link l) := by rw [hk]
    _ = s := by simp only [State.setLink, State.link, tset_get linkDef s.links l hlinks]

section
variable {s : State} {q : Nat} {a : Ans} {r : List Ans} (hq : (s.queue q).answers = a :: r)
include hq

theorem State.answerSend_of_not_ready (h : a.ready = false) : s.answerSend q = s := by simp [State.answerSend, hq, h]

theorem State.answerSend_of_snoops_first (h : s.snoopsFirst (q / 8 / 64) a.order = true) : s.answerSend q = s := by
  simp [State.answerSend, hq, h]

section
variable (hready : a.ready = true) (hsnoop : s.snoopsFirst (q / 8 / 64) a.order = false)
include hready hsnoop

theorem State.answerSend_of_link_full (h : (s.link (q / 8 / 64)).canSend (a.msg (q / 8) (q % 8)) = false) :
    s.answerSend q = s.wakeLink (q / 8 / 64) := by simp [State.answerSend, hq, hready, hsnoop, h]

variable (hcan : (s.link (q / 8 / 64)).canSend (a.msg (q / 8) (q % 8)) = true)
  (hclear : (s.link (q / 8 / 64)).classClear (a.msg (q / 8) (q % 8)) = true)
include hcan hclear

theorem State.answerSend_of_canSend :
    s.answerSend q = ((s.setQueue q { s.queue q with answers := r }).countAns q a).sendMsg (q / 8 / 64)
      (a.msg (q / 8) (q % 8)) := by
  simp [State.answerSend, State.countAns, hq, hready, hsnoop, hcan, hclear]

/-- The answer that leaves is no longer owed, frees its tag and is in the record. -/
theorem State.answerSend_effect (hwf : s.tablesWf = true) (hroute : s.bit rIntrRoute 10 = false) :
    ((s.answerSend q).queue q).answers = r ∧
      ((s.answerSend q).link (q / 8 / 64)).reqTags = (s.link (q / 8 / 64)).reqTags.filter (· != a.tag.toNat) ∧
      .msg (q / 8 / 64) (a.msg (q / 8) (q % 8)) (s.link (q / 8 / 64)).txAck ∈ (s.answerSend q).out := by
  rw [State.answerSend_of_canSend hq hready hsnoop hcan hclear]
  generalize hu : s.setQueue q { s.queue q with answers := r } = u
  have hulink : u.links = s.links := by rw [← hu]; rfl
  have huroute : u.bit rIntrRoute 10 = false := by rw [← hu]; exact hroute
  obtain ⟨hlinks, hcount⟩ := (Reports.countAns u q a).unrouted huroute
  have hlink : (u.countAns q a).link (q / 8 / 64) = s.link (q / 8 / 64) := by simp only [State.link, hlinks, hulink]
  rw [← hlink] at hcan hclear ⊢
  refine ⟨?_, ?_, State.mem_sendMsg_out hcan hclear⟩
  · have hqueues := ((Reported.countAns u q a).trans (Reported.sendMsg _ (q / 8 / 64) (a.msg (q / 8) (q % 8)))).queues
    rw [State.queue_congr hqueues, ← hu, State.queue_setQueue s hwf, if_pos rfl]
  · rw [State.sendMsg_link hcan hclear hcount]
    simp only [Link.send, Ans.msg_answers, bne, Bool.beq_comm]

end

end

/-! ### The end of a FENCE (R144, R145) -/

/-- The status of a FENCE of port `p`. -/
def State.fenceStatus (s : State) (p : Nat) : BitVec 4 :=
  if s.saf.safe == .halted then stHalted else if (s.port p).lossFlag then stFenceLoss else stOk

/-- Port `p` once its FENCE `id` is answered. -/
def State.fencedPort (s : State) (p id : Nat) : Port :=
  { s.port p with
    fence := none, fences := (s.port p).fences.filter (· != id)
    lossFlag := (s.port p).lossFlag && s.saf.safe == .halted }

/-- What is counted of a FENCE that ends with this status. -/
def State.countFence (s : State) (p : Nat) (f : FenceRec) (st : BitVec 4) : State :=
  let a : Attr := { req := some (p, f.priv.toNat, f.tc.toNat) }
  if st == stFenceLoss then (s.count 0x1F a).count 0x20 a else s.count 0x1F a

theorem Reported.countFence (s : State) (p : Nat) (f : FenceRec) (st : BitVec 4) : Reported s (s.countFence p f st) := by
  unfold State.countFence
  dsimp only
  split
  · exact (Reported.count s _ _ _).trans (Reported.count _ _ _ _)
  · exact Reported.count s _ _ _

section
variable (s : State) (p : Nat) (f : FenceRec)

/-- The end of a FENCE: its port first, then the counts, then its answer. -/
theorem State.fenceEnd_eq :
    s.fenceEnd p f = ((s.setPort p (s.fencedPort p f.id)).countFence p f (s.fenceStatus p)).answer
      (queueOf p f.tc.toNat) f.id 0 ⟨s.fenceStatus p, grI, 0, 0⟩ := rfl

theorem State.fenceEnd_port (hwf : s.tablesWf = true) (j : Nat) :
    (s.fenceEnd p f).port j = if j = p then s.fencedPort p f.id else s.port j := by
  have hports := (Reported.countFence (s.setPort p (s.fencedPort p f.id)) p f (s.fenceStatus p)).ports
  calc (s.fenceEnd p f).port j = (s.setPort p (s.fencedPort p f.id)).port j := State.port_congr hports j
    _ = _ := s.port_setPort hwf p j _

theorem State.fenceEnd_queue (hwf : s.tablesWf = true) (j : Nat) :
    (s.fenceEnd p f).queue j = if j = queueOf p f.tc.toNat then { s.queue (queueOf p f.tc.toNat) with
      answers := (s.queue (queueOf p f.tc.toNat)).answers.map (fun a =>
        if a.id == f.id then a.fill 0 ⟨s.fenceStatus p, grI, 0, 0⟩ else a) } else s.queue j := by
  have hqueues := (Reported.countFence (s.setPort p (s.fencedPort p f.id)) p f (s.fenceStatus p)).queues
  have htwf := State.twf_queues (s.wf_setPort hwf p (s.fencedPort p f.id))
  rw [State.fenceEnd_eq, State.queue_answer (hqueues ▸ htwf), State.queue_congr hqueues, State.queue_congr hqueues]
  rfl

theorem State.fenceEnd_home : (s.fenceEnd p f).home = s.home :=
  (Reported.countFence (s.setPort p (s.fencedPort p f.id)) p f (s.fenceStatus p)).home

theorem State.fenceEnd_mem : (s.fenceEnd p f).mem = s.mem :=
  (Reported.countFence (s.setPort p (s.fencedPort p f.id)) p f (s.fenceStatus p)).mem

end

/-! ### From the commands to the queue and the fence logic -/

theorem queueOf_div (p : Nat) {tc : Nat} (h : tc < 8) : queueOf p tc / 8 = p := by
  simp only [queueOf]
  omega

section
variable {s : State} {port : Fin 1024}

theorem exec_answerSend_of_none_waiting (hwf : s.tablesWf = true) (tc : Fin 8)
    (h : (s.link (queueOf port.val tc.val / 8 / 64)).wbDone = []) :
    exec (.answerSend port tc) s = .next (s.answerSend (queueOf port.val tc.val)).norm := by
  rw [queueOf_div port.val tc.isLt] at h
  calc exec (.answerSend port tc) s
      = ((s.wbFlush (port.val / 64)).answerSend (queueOf port.val tc.val)).done := rfl
    _ = .next (s.answerSend (queueOf port.val tc.val)).norm := by rw [State.wbFlush_of_none_waiting hwf h, State.done_next]

theorem exec_fenceComplete_of_fence {f : FenceRec} (hf : (s.port port.val).fence = some f) :
    exec (.fenceComplete port) s =
      .next (if s.fenceReady port.val f.id then s.fenceEnd port.val f else s).norm := by
  show State.done _ = _
  rw [hf]
  rfl

end

/-! ### The statement -/

/-- Settles O32: the conditions of `State.answerSend` in their order, on a link for which no CMP of a WB_FULL waits, and the
fence logic by whether its FENCE is ready. -/
theorem answersInOrder : Obligations.AnswersInOrder := by
  refine ⟨?answers, ?fences⟩
  case answers =>
    intro s port tc a r q l m hwf hq hdone
    rw [exec_answerSend_of_none_waiting hwf tc hdone]
    refine ⟨fun hready => ?_, fun _ hsnoop => ?_, fun hready hsnoop hfull => ?_, fun hready hsnoop hcan hclear => ?_,
      fun hready hsnoop hcan hclear hroute => ?_⟩
    · rw [State.answerSend_of_not_ready hq hready]
    · rw [State.answerSend_of_snoops_first hq hsnoop]
    · rw [State.answerSend_of_link_full hq hready hsnoop hfull]
    · rw [State.answerSend_of_canSend hq hready hsnoop hcan hclear]
      rfl
    · have heffect := State.answerSend_effect hq hready hsnoop hcan hclear hwf hroute
      exact ⟨_, rfl, by simpa using heffect⟩
  case fences =>
    intro s port f hf
    rw [exec_fenceComplete_of_fence hf]
    refine ⟨fun hready => by simp [hready], fun hready hwf => ⟨_, rfl, ?_⟩⟩
    rw [if_pos hready]
    refine ⟨?_, ?_, fun j hj => ?_, fun j hj => ?_, State.norm_home_of_eq hwf (s.fenceEnd_home _ f),
      State.norm_mem_of_eq hwf (s.fenceEnd_mem _ f)⟩
    · rw [State.norm_port, s.fenceEnd_port _ f hwf, if_pos rfl]
      rfl
    · rw [State.norm_queue, s.fenceEnd_queue _ f hwf, if_pos rfl]
      rfl
    · rw [State.norm_port, s.fenceEnd_port _ f hwf, if_neg hj]
    · rw [State.norm_queue, s.fenceEnd_queue _ f hwf, if_neg hj]

end Sys2Proof.Machine
end

section
/-! SUPPORT. The way in of a queued request that nothing holds up (R54, R77 to R81, R86): its link takes it in, no link waits
for entries, every check passes, and it joins its queue. -/
namespace Sys2Proof.Machine

/-! ### The enqueue checks depend on registers, main memory and roles (R29, R59, R69, R263, R264) -/

section
variable {s t : State} (hcsr : t.csr = s.csr)
include hcsr

theorem State.fld_congr : t.fld = s.fld := by
  funext o lo width
  simp only [State.fld, State.reg, State.reg3, hcsr]

theorem State.bit_congr : t.bit = s.bit := by
  funext o n
  rw [State.bit, State.fld_congr hcsr, State.bit]

theorem State.windows_congr : t.windows = s.windows := by
  unfold State.windows State.winValid
  rw [State.bit_congr hcsr]

theorem State.inTagArea_congr (a n : Nat) : t.inTagArea a n = s.inTagArea a n := by
  unfold State.inTagArea State.winInteg State.tagArea State.winTbase State.winLimit State.winBase
  rw [State.windows_congr hcsr, State.bit_congr hcsr, State.fld_congr hcsr]

theorem State.adPermits_congr (ad : Nat) (rd wr : Bool) (a n : Nat) :
    t.adPermits ad rd wr a n = s.adPermits ad rd wr a n := by
  unfold State.adPermits State.winHolds State.winLimit State.winBase State.adNames
  rw [State.windows_congr hcsr, State.bit_congr hcsr, State.fld_congr hcsr]

theorem State.pdw_congr (a : Nat) : t.pdw a = s.pdw a := by
  unfold State.pdw
  rw [State.bit_congr hcsr, State.fld_congr hcsr]

theorem State.poolRoom_congr (hqueues : t.queues = s.queues) (p n : Nat) : t.poolRoom p n = s.poolRoom p n := by
  unfold State.poolRoom State.portEnts State.queue State.poolMax State.sharedHeld
  rw [hqueues, State.fld_congr hcsr]

theorem State.laybyRoom_congr (hports : t.ports = s.ports) (p n : Nat) : t.laybyRoom p n = s.laybyRoom p n := by
  unfold State.laybyRoom State.port State.laybyMax State.laybyHeld
  rw [hports, State.fld_congr hcsr]

section
variable (hmem : t.mem = s.mem)
  (hroles : ∀ j, (t.link j).roleCaching = (s.link j).roleCaching ∧ (t.link j).peerWindows = (s.link j).peerWindows)
include hmem hroles

theorem State.regionOk_congr (op : BitVec 6) (h : Req) (q : Nat × Nat) : t.regionOk op h q = s.regionOk op h q := by
  unfold State.regionOk State.memBytes
  rw [hmem, State.pdw_congr hcsr]
  cases s.pdw h.addr.toNat with
  | none => rfl
  | some l => simp only [(hroles l).2]

theorem State.partCheck_congr (l p : Nat) (op : BitVec 6) (h : Req) : t.partCheck l p op h = s.partCheck l p op h := by
  funext q
  unfold State.partCheck State.opcodeOk State.portAd
  dsimp only
  rw [State.regionOk_congr hcsr hmem hroles, (hroles l).1, State.inTagArea_congr hcsr, State.fld_congr hcsr,
    State.adPermits_congr hcsr]

theorem State.enqCheck_congr (l p : Nat) (op : BitVec 6) (h : Req) : t.enqCheck l p op h = s.enqCheck l p op h := by
  rw [State.enqCheck, State.partCheck_congr hcsr hmem hroles, State.enqCheck]

end

end

/-! ### The link takes the request in (R54, R72, R74) -/

theorem State.canEnter_iff {s : State} {l n : Nat} {h : Req} :
    s.canEnter l h n = true ↔
      (s.link l).state = .active ∧ (s.link l).detaching = false ∧ h.stream.toNat ≤ (s.link l).streamCntM1 ∧
      h.tag.toNat ∉ (s.link l).reqTags ∧ (∀ j ∈ links16, (s.link j).held = []) ∧
      (s.link l).rxHeld.req + (s.link l).rxFreed.req + 1 + n ≤ 480 ∧ s.saf.safe = .normal ∧ s.power.boot = .run ∧
      s.votesOk (s.votedUsed usesDomains) = true := by
  simp [State.canEnter, and_assoc]

/-- The link's side of a request: its slots and its tag. -/
def Link.reqTaken (k : Link) (op : BitVec 6) (h : Req) (slots : List MsgSlot) : Link :=
  { k with
    rxHeld := k.rxHeld.upd 0 (· + (1 + slots.length))
    reqTags := k.reqTags ++ [h.tag.toNat]
    wbOpen := if op == opWbFull then k.wbOpen ++ [(h.tag.toNat, lineOf h.addr)] else k.wbOpen }

/-- The state in which a request that has arrived whole is first pushed. -/
def State.reqTaken (s : State) (l : Nat) (op : BitVec 6) (h : Req) (slots : List MsgSlot) : State :=
  let p := l * 64 + h.stream.toNat
  let t := ({ s with arrival := s.arrival + 1 }).setLink l ((s.link l).reqTaken op h slots)
  if op == opFence then t.setPort p { s.port p with fences := (s.port p).fences ++ [s.arrival] } else t

/-- The request as it stands in the receive buffer. -/
def State.pushed (s : State) (op : BitVec 6) (h : Req) (slots : List MsgSlot) : HeldReq :=
  ⟨op, h, slots, s.arrival, false, false, true⟩

section
variable {s : State} {l : Nat} {op : BitVec 6} {h : Req} {slots : List MsgSlot}

theorem State.reqIn_of_canEnter (hcan : s.canEnter l h slots.length = true) :
    s.reqIn l op h slots = (s.reqTaken l op h slots).tryHeld l (s.pushed op h slots) := by
  obtain ⟨hact, hdet, hstream, htag, -, hroom, -⟩ := State.canEnter_iff.1 hcan
  have hcarry : s.carrying l = true := by simp [State.carrying, hact]
  have hbad : s.reqBad l h = false := by simp [State.reqBad, hdet, hstream, htag]
  have hbuf : ¬ devAdv 0 < (s.link l).rxHeld.get 0 + (s.link l).rxFreed.get 0 + (1 + slots.length) := by
    simp only [devAdv, Tolls.get, if_true]
    omega
  simp only [State.reqIn, hcarry, hbad, hbuf, Bool.not_true, Bool.false_eq_true, if_false]
  rfl

theorem State.reqTaken_of_ne_fence (hop : op ≠ opFence) :
    s.reqTaken l op h slots = ({ s with arrival := s.arrival + 1 }).setLink l ((s.link l).reqTaken op h slots) := by
  simp [State.reqTaken, hop]

theorem State.reqTaken_fence : s.reqTaken l opFence h slots =
    (({ s with arrival := s.arrival + 1 }).setLink l ((s.link l).reqTaken opFence h slots)).setPort
      (l * 64 + h.stream.toNat) { s.port (l * 64 + h.stream.toNat) with
        fences := (s.port (l * 64 + h.stream.toNat)).fences ++ [s.arrival] } := rfl

@[simp] theorem State.reqTaken_csr : (s.reqTaken l op h slots).csr = s.csr := by
  unfold State.reqTaken; dsimp only; split <;> rfl
@[simp] theorem State.reqTaken_saf : (s.reqTaken l op h slots).saf = s.saf := by
  unfold State.reqTaken; dsimp only; split <;> rfl
@[simp] theorem State.reqTaken_power : (s.reqTaken l op h slots).power = s.power := by
  unfold State.reqTaken; dsimp only; split <;> rfl
@[simp] theorem State.reqTaken_queues : (s.reqTaken l op h slots).queues = s.queues := by
  unfold State.reqTaken; dsimp only; split <;> rfl
@[simp] theorem State.reqTaken_home : (s.reqTaken l op h slots).home = s.home := by
  unfold State.reqTaken; dsimp only; split <;> rfl
@[simp] theorem State.reqTaken_mem : (s.reqTaken l op h slots).mem = s.mem := by
  unfold State.reqTaken; dsimp only; split <;> rfl
theorem State.reqTaken_links :
    (s.reqTaken l op h slots).links = (s.setLink l ((s.link l).reqTaken op h slots)).links := by
  unfold State.reqTaken; dsimp only; split <;> rfl

theorem State.wf_reqTaken (hwf : s.tablesWf = true) : (s.reqTaken l op h slots).tablesWf = true := by
  have hlink := State.wf_setLink { s with arrival := s.arrival + 1 } hwf l ((s.link l).reqTaken op h slots)
  unfold State.reqTaken
  dsimp only
  split
  · exact State.wf_setPort _ hlink _ _
  · exact hlink

theorem State.reqTaken_link (hact : (s.link l).state = .active) (j : Nat) :
    (s.reqTaken l op h slots).link j = if j = l then (s.link l).reqTaken op h slots else s.link j := by
  have hstate : ((s.link l).reqTaken op h slots).state ≠ .detect := LinkState.ne_detect_of_active hact
  have hlink : (s.reqTaken l op h slots).link j = (s.setLink l ((s.link l).reqTaken op h slots)).link j := by
    simp only [State.link, State.reqTaken_links]
  rw [hlink]
  split
  · next hj => rw [hj, s.link_setLink_same hstate]
  · next hj => rw [s.link_setLink_other hj]

theorem State.reqTaken_held (hact : (s.link l).state = .active) (j : Nat) :
    ((s.reqTaken l op h slots).link j).held = (s.link j).held := by
  rw [State.reqTaken_link hact]
  split
  · next hj => rw [hj]; rfl
  · rfl

theorem State.reqTaken_poolRoom (p n : Nat) : (s.reqTaken l op h slots).poolRoom p n = s.poolRoom p n :=
  State.poolRoom_congr State.reqTaken_csr State.reqTaken_queues p n

theorem State.reqTaken_laybyRoom (hop : op ≠ opFence) (p n : Nat) :
    (s.reqTaken l op h slots).laybyRoom p n = s.laybyRoom p n :=
  State.laybyRoom_congr State.reqTaken_csr (by rw [State.reqTaken_of_ne_fence hop]; rfl) p n

theorem State.reqTaken_votesOk (used : Nat → Bool) :
    (s.reqTaken l op h slots).votesOk ((s.reqTaken l op h slots).votedUsed used) = s.votesOk (s.votedUsed used) := by
  simp only [State.votesOk, State.votedUsed, State.reg3, State.reqTaken_csr]

theorem State.reqTaken_enqCheck (hact : (s.link l).state = .active) (p : Nat) :
    (s.reqTaken l op h slots).enqCheck l p op h = s.enqCheck l p op h := by
  refine State.enqCheck_congr State.reqTaken_csr State.reqTaken_mem (fun j => ?_) l p op h
  rw [State.reqTaken_link hact]
  split
  · next hj => rw [hj]; exact ⟨rfl, rfl⟩
  · exact ⟨rfl, rfl⟩

end

/-! ### No link waits for entries (R80, R81) -/

theorem foldl_eq_of_fixed {α β : Type} {f : α → β → α} {bs : List β} (h : ∀ a, ∀ b ∈ bs, f a b = a) (a : α) :
    bs.foldl f a = a := by
  induction bs with
  | nil => rfl
  | cons b bs ih =>
    rw [List.foldl_cons, h a b List.mem_cons_self]
    exact ih (fun a c hc => h a c (List.mem_cons_of_mem b hc))

section
variable {s : State} {l : Nat} {e : HeldReq}

theorem State.rivals_of_none_held (hheld : ∀ j ∈ links16, (s.link j).held = []) (want : Nat → HeldReq → Nat) :
    s.rivals l want = (0, []) := by
  refine foldl_eq_of_fixed (fun a j hj => ?_) _
  rw [hheld j (List.mem_filter.1 hj).1]
  rfl

theorem State.turn_of_no_rivals {need free : Nat} (h : need = 0 ∨ need ≤ free) (arb : Nat) :
    s.turn arb l free need (0, []) = none := by
  rw [State.turn, if_pos]
  exact h

theorem State.wantShared_le : s.wantShared l e ≤ (reqParts e.op e.h).length := by
  unfold State.wantShared
  dsimp only
  split
  · exact Nat.zero_le _
  · split
    · split <;> omega
    · split <;> omega

theorem State.wantLayby_of_not_write (hpost : isPostedOp e.op = false) (hcond : e.op ≠ opWrCond) :
    s.wantLayby l e = 0 := by
  have hwrite : isWriteOp e.op = (isPostedOp e.op || e.op == opWrCond) := rfl
  simp [State.wantLayby, hwrite, hpost, hcond]

theorem State.wantLayby_le_one_of_cond (h : e.op = opWrCond) : s.wantLayby l e ≤ 1 := by
  simp only [State.wantLayby, h, beq_self_eq_true, if_true]
  split
  · exact Nat.zero_le 1
  · split <;> omega

section
variable (hheld : ∀ j ∈ links16, (s.link j).held = [])
include hheld

theorem State.poolTurn_of_none_held (hroom : s.sharedHeld + (reqParts e.op e.h).length ≤ 8192) :
    s.poolTurn l e = none := by
  have hwant := State.wantShared_le (s := s) (l := l) (e := e)
  rw [State.poolTurn, State.rivals_of_none_held hheld]
  exact State.turn_of_no_rivals (.inr (by omega)) poolArb

theorem State.laybyTurn_of_none_held (hpost : isPostedOp e.op = false)
    (hroom : e.op = opWrCond → s.laybyHeld + 1 ≤ 2048) : s.laybyTurn l e = none := by
  rw [State.laybyTurn, State.rivals_of_none_held hheld]
  by_cases hcond : e.op = opWrCond
  · have hwant := State.wantLayby_le_one_of_cond (s := s) (l := l) hcond
    have hfree : 1 ≤ 2048 - s.laybyHeld := Nat.le_sub_of_add_le' (hroom hcond)
    exact State.turn_of_no_rivals (.inr (Nat.le_trans hwant hfree)) laybyArb
  · exact State.turn_of_no_rivals (.inl (State.wantLayby_of_not_write hpost hcond)) laybyArb

/-- A queued request that finds its entries free, on a device whose links hold no other request, is placed at its first
push. -/
theorem State.tryHeld_of_placed (hl : l ∈ links16) (hpost : isPostedOp e.op = false)
    (hpool : s.sharedHeld + (reqParts e.op e.h).length ≤ 8192) (hlayby : e.op = opWrCond → s.laybyHeld + 1 ≤ 2048)
    {t : State} (hput : s.putReq l e.op e.h e.slots e.id = .placed t) : s.tryHeld l e = t.moved l e := by
  simp [State.tryHeld, hheld l hl, State.poolTurn_of_none_held hheld hpool,
    State.laybyTurn_of_none_held hheld hpost hlayby, hput, State.turned]

end

end

/-! ### The request joins its queue (R77, R78, R142) -/

section
variable {s : State} {p tc : Nat} {op : BitVec 6} {h : Req} {slots : List MsgSlot} {id : Nat}

theorem State.putReq_of_queued {l : Nat} (hvotes : s.votesOk (s.votedUsed usesDomains) = true)
    (hhalt : s.answersHalted op h = false) (hpost : isPostedOp op = false) :
    s.putReq l op h slots id =
      s.putQueued (l * 64 + h.stream.toNat) op h slots id (s.enqCheck l (l * 64 + h.stream.toNat) op h) := by
  simp [State.putReq, s.guardVotes_of_votesOk hvotes, hhalt, hpost]

theorem State.answersHalted_of_running (hsafe : s.saf.safe = .normal) (hboot : s.power.boot = .run) :
    s.answersHalted op h = false := by
  simp [State.answersHalted, hsafe, hboot]

theorem State.poolRoom_iff {n : Nat} :
    s.poolRoom p n = true ↔ (s.portEnts p).length + n ≤ s.poolMax p ∧ s.sharedHeld + n ≤ 8192 := by
  simp [State.poolRoom]

theorem State.laybyRoom_iff {n : Nat} :
    s.laybyRoom p n = true ↔ (s.port p).layby.length + n ≤ s.laybyMax p ∧ s.laybyHeld + n ≤ 2048 := by
  simp [State.laybyRoom]

theorem State.poolGet_of_room (hroom : s.poolRoom p 1 = true) :
    s.poolGet p tc = .reserved ∨ s.poolGet p tc = .shared := by
  obtain ⟨hport, hshared⟩ := State.poolRoom_iff.1 hroom
  unfold State.poolGet
  split
  · exact .inl rfl
  · rw [if_neg (by omega), if_neg (by omega)]
    exact .inr rfl

theorem State.laybyGet_of_room (hroom : s.laybyRoom p 1 = true) : s.laybyGet p 1 = .shared := by
  obtain ⟨hport, hall⟩ := State.laybyRoom_iff.1 hroom
  rw [State.laybyGet, if_neg Nat.one_ne_zero, if_neg (Nat.not_lt.2 hport)]
  exact if_neg (Nat.not_lt.2 hall)

/-- One part takes one pool entry: the reserved one of its queue or a shared one. -/
theorem pushParts_of_one (hroom : s.poolRoom p 1 = true) (e : QEnt) :
    ∃ e', e'.id = e.id ∧ e'.op = e.op ∧ pushParts p tc [e] s = (.shared, s.pushEnt (queueOf p tc) e') := by
  rcases State.poolGet_of_room (tc := tc) hroom with hget | hget
  · exact ⟨{ e with reserved := true }, rfl, rfl, by simp only [pushParts, hget]⟩
  · exact ⟨e, rfl, rfl, by simp only [pushParts, hget]⟩

theorem State.queueEnts_of_one (hone : (reqParts op h).length = 1) (rs : List (Option (Refuse × Nat))) :
    ∃ e, e.id = id ∧ e.op = op ∧ s.queueEnts op h slots id rs = [e] := by
  rw [State.queueEnts, hone]
  exact ⟨_, rfl, rfl, rfl⟩

/-- The queue entry and the answer of a request of one part. -/
def State.queued (s : State) (q : Nat) (e : QEnt) (a : Ans) : State := (s.pushEnt q e).pushAns q a

section
variable (q : Nat) (e : QEnt) (a : Ans)

theorem Reported.pushEnt : Reported (s.setQueue q { s.queue q with ents := (s.queue q).ents ++ [e] }) (s.pushEnt q e) :=
  Reported.count _ _ _ _

@[simp] theorem State.queued_ports : (s.queued q e a).ports = s.ports := (Reported.pushEnt q e).ports
@[simp] theorem State.queued_home : (s.queued q e a).home = s.home := (Reported.pushEnt q e).home
@[simp] theorem State.queued_mem : (s.queued q e a).mem = s.mem := (Reported.pushEnt q e).mem

theorem State.queued_queue (hwf : s.tablesWf = true) (j : Nat) :
    (s.queued q e a).queue j =
      if j = q then ⟨(s.queue q).ents ++ [e], (s.queue q).answers ++ [a]⟩ else s.queue j := by
  have hqueues := (Reported.pushEnt (s := s) q e).queues
  have hent := State.wf_setQueue s hwf q { s.queue q with ents := (s.queue q).ents ++ [e] }
  have hpush (i : Nat) : (s.pushEnt q e).queue i =
      if i = q then { s.queue q with ents := (s.queue q).ents ++ [e] } else s.queue i := by
    rw [State.queue_congr hqueues, s.queue_setQueue hwf]
  have htwf : twf queueDef (s.pushEnt q e).queues = true := hqueues ▸ State.twf_queues hent
  calc (s.queued q e a).queue j
      = if j = q then { (s.pushEnt q e).queue q with answers := ((s.pushEnt q e).queue q).answers ++ [a] }
          else (s.pushEnt q e).queue j := tget_tset queueDef _ q _ j htwf
    _ = _ := by
      rw [hpush, hpush, if_pos rfl]
      split <;> rfl

end

/-- A request of one part that passes every check and finds room. -/
theorem State.putQueued_of_room (hone : (reqParts op h).length = 1) {rs : List (Option (Refuse × Nat))}
    (hrs : failures rs = []) (hroom : s.poolRoom p 1 = true)
    (hlayby : op = opWrCond → s.laybyRoom p 1 = true) :
    ∃ e, e.id = id ∧ e.op = op ∧
      let t := s.queued (queueOf p h.tc.toNat) e (mkAns id op h false)
      s.putQueued p op h slots id rs = .placed (
        if op = opWrCond then t.layAccept p (mkLay id op h slots false h.addr.toNat (h.sizeM1.toNat + 1) .mem)
        else (t.tryForward (queueOf p h.tc.toNat)).getD t) := by
  obtain ⟨e, hid, hop, hents⟩ := State.queueEnts_of_one (s := s) (slots := slots) (id := id) hone rs
  obtain ⟨e', hid', hop', hpush⟩ := pushParts_of_one (tc := h.tc.toNat) hroom e
  refine ⟨e', hid'.trans hid, hop'.trans hop, ?_⟩
  by_cases hcond : op = opWrCond
  · have hget := State.laybyGet_of_room (hlayby hcond)
    subst hcond
    simp only [State.putQueued, hents, hpush, hrs, hget, beq_self_eq_true, List.isEmpty_nil, Bool.and_self,
      if_true, forEach]
    rfl
  · simp only [State.putQueued, hents, hpush, hrs, beq_eq_false_iff_ne.2 hcond, hcond, Bool.false_and, Bool.false_eq_true,
      if_false, forEach]
    rfl

/-- The lay-by of a port where no write waits forwards nothing (R91). -/
theorem State.tryForward_of_empty_layby {q : Nat} (h : (s.port (q / 8)).layby = []) : s.tryForward q = none := by
  have hfwd (e : QEnt) : s.forwardOf (q / 8) e = none := by simp [State.forwardOf, State.layBefore, h]
  unfold State.tryForward
  dsimp only
  split
  · rfl
  · rw [hfwd]
    split <;> rfl

end

/-! ### The data of a conditional store enters the lay-by (R86, R149) -/

section
variable {s : State} {p : Nat} {e : LbEnt} (hop : e.op = opWrCond)
include hop

/-- A conditional store is never merged (R87). -/
theorem Reported.layAccept_of_cond : Reported (s.setPort p { s.port p with
      layby := (s.port p).layby ++ [e], accepted := (s.port p).accepted + 1 }) (s.layAccept p e) := by
  have hnot : (e.op == opWrFull || e.op == opWrPtl) = false := by rw [hop]; rfl
  simp only [State.layAccept, hnot, Bool.false_and, Bool.false_eq_true, if_false]
  exact Reported.count _ _ _ _

theorem State.layAccept_port_of_cond (htwf : twf portDef s.ports = true) (j : Nat) :
    (s.layAccept p e).port j = if j = p then { s.port p with
      layby := (s.port p).layby ++ [e], accepted := (s.port p).accepted + 1 } else s.port j := by
  rw [State.port_congr (Reported.layAccept_of_cond hop).ports]
  exact tget_tset portDef s.ports p _ j htwf

end

/-! ### The request leaves the receive buffer (R49, R51) -/

section
variable (s : State) (l : Nat)

@[simp] theorem State.freeSlots_mem (c n : Nat) : (s.freeSlots l c n).mem = s.mem := by
  unfold State.freeSlots; dsimp only; split <;> rfl

variable {e : HeldReq} (hcrossed : e.crossed = false)
include hcrossed

/-- With no crossed mark to hand on, only the link's side of the request changes. -/
theorem State.moved_of_not_crossed :
    s.moved l e =
      let t := s.setLink l { s.link l with held := (s.link l).held.filter (fun x => x.id != e.id) }
      if e.paid then t.freeSlots l 0 (1 + e.slots.length) else t := by
  simp only [State.moved, hcrossed, Bool.false_eq_true, if_false]

theorem State.moved_ports : (s.moved l e).ports = s.ports := by
  rw [s.moved_of_not_crossed l hcrossed]; dsimp only; split <;> simp
theorem State.moved_queues : (s.moved l e).queues = s.queues := by
  rw [s.moved_of_not_crossed l hcrossed]; dsimp only; split <;> simp
theorem State.moved_home : (s.moved l e).home = s.home := by
  rw [s.moved_of_not_crossed l hcrossed]; dsimp only; split <;> simp
theorem State.moved_mem : (s.moved l e).mem = s.mem := by
  rw [s.moved_of_not_crossed l hcrossed]; dsimp only; split <;> simp

end

end Sys2Proof.Machine
end

section
/-! SUPPORT. Conditional stores and FENCEs enter their queue (R143, R149). -/
namespace Sys2Proof.Machine

section
variable {s : State} {l : Fin 16} {h : Req} {slots : List MsgSlot} {op : BitVec 6}

/-- A queued request of one part that passes every check and finds room: its link takes it in, it joins its queue, and it
leaves the receive buffer. -/
theorem State.reqIn_of_room (hcan : s.canEnter l.val h slots.length = true) (hpost : isPostedOp op = false)
    (hone : (reqParts op h).length = 1) (hpool : s.poolRoom (l.val * 64 + h.stream.toNat) 1 = true)
    (hlayby : op = opWrCond → s.laybyRoom (l.val * 64 + h.stream.toNat) 1 = true)
    (hchecks : failures (s.enqCheck l.val (l.val * 64 + h.stream.toNat) op h) = []) :
    let p := l.val * 64 + h.stream.toNat
    let q := queueOf p h.tc.toNat
    ∃ e, e.id = s.arrival ∧ e.op = op ∧
      let t := (s.reqTaken l.val op h slots).queued q e (mkAns s.arrival op h false)
      s.reqIn l.val op h slots = (if op = opWrCond then
          t.layAccept p (mkLay s.arrival op h slots false h.addr.toNat (h.sizeM1.toNat + 1) .mem)
        else (t.tryForward q).getD t).moved l.val (s.pushed op h slots) := by
  intro p q
  obtain ⟨hact, -, -, -, hheld, -, hsafe, hboot, hvotes⟩ := State.canEnter_iff.1 hcan
  have hpool' : (s.reqTaken l.val op h slots).poolRoom p 1 = true := by rw [State.reqTaken_poolRoom, hpool]
  have hlayby' (hcond : op = opWrCond) : (s.reqTaken l.val op h slots).laybyRoom p 1 = true := by
    rw [State.reqTaken_laybyRoom (by rw [hcond]; decide), hlayby hcond]
  have hhalt : (s.reqTaken l.val op h slots).answersHalted op h = false :=
    State.answersHalted_of_running (by rw [State.reqTaken_saf, hsafe]) (by rw [State.reqTaken_power, hboot])
  obtain ⟨e, hid, hop, hput⟩ := State.putQueued_of_room (slots := slots) (id := s.arrival) hone hchecks hpool' hlayby'
  refine ⟨e, hid, hop, ?_⟩
  rw [State.reqIn_of_canEnter hcan]
  refine State.tryHeld_of_placed (fun j hj => ?_) (List.mem_range.2 l.isLt) hpost ?_
    (fun hcond => (State.laybyRoom_iff.1 (hlayby' hcond)).2) ?_
  · rw [State.reqTaken_held hact, hheld j hj]
  · exact hone.symm ▸ (State.poolRoom_iff.1 hpool').2
  · refine (State.putReq_of_queued (by rw [State.reqTaken_votesOk, hvotes]) hhalt hpost).trans ?_
    rw [State.reqTaken_enqCheck hact]
    exact hput

theorem reqParts_of_whole (hop : (op == opRdOnce || op == opWrPtl) = false) : (reqParts op h).length = 1 := by
  simp [reqParts, hop]

theorem State.reqTaken_port_of_ne_fence (hop : op ≠ opFence) (j : Nat) :
    (s.reqTaken l.val op h slots).port j = s.port j := by
  rw [State.reqTaken_of_ne_fence hop]
  rfl

section
variable (hwf : s.tablesWf = true)
include hwf

/-- A FENCE is on the list of its port from its arrival, ahead of every later request (R143). -/
theorem State.reqTaken_fence_port (j : Nat) :
    (s.reqTaken l.val opFence h slots).port j = if j = l.val * 64 + h.stream.toNat then
      { s.port (l.val * 64 + h.stream.toNat) with
        fences := (s.port (l.val * 64 + h.stream.toNat)).fences ++ [s.arrival] } else s.port j := by
  rw [State.reqTaken_fence]
  exact State.port_setPort _ (State.wf_setLink { s with arrival := s.arrival + 1 } hwf _ _) _ _ _

/-- What a request that joined its queue leaves once it is out of the receive buffer, whatever `u` did to its port. -/
theorem State.moved_queued {q : Nat} {e : QEnt} {a : Ans} {u : State}
    (hqueues : u.queues = ((s.reqTaken l.val op h slots).queued q e a).queues) (hhome : u.home = s.home)
    (hmem : u.mem = s.mem) :
    let t := (u.moved l.val (s.pushed op h slots)).norm
    (∀ j, t.queue j = if j = q then ⟨(s.queue q).ents ++ [e], (s.queue q).answers ++ [a]⟩ else s.queue j) ∧
    (∀ j, t.port j = u.port j) ∧ t.home = s.home ∧ t.mem = s.mem := by
  have hcrossed : (s.pushed op h slots).crossed = false := rfl
  refine ⟨fun j => ?_, fun j => ?_, State.norm_home_of_eq hwf ((u.moved_home _ hcrossed).trans hhome),
    State.norm_mem_of_eq hwf ((u.moved_mem _ hcrossed).trans hmem)⟩
  · rw [State.norm_queue, State.queue_congr ((u.moved_queues _ hcrossed).trans hqueues),
      State.queued_queue q e a (State.wf_reqTaken hwf), State.queue_congr State.reqTaken_queues,
      State.queue_congr State.reqTaken_queues]
  · rw [State.norm_port, State.port_congr (u.moved_ports _ hcrossed)]

end

end

/-! ### The statement -/

/-- A conditional store that passes every check and finds room (R149): a queue entry, and the lay-by entry of its data. -/
theorem State.reqIn_cond_of_room {s : State} {l : Fin 16} {h : Req} {slots : List MsgSlot}
    (hcan : s.canEnter l.val h slots.length = true) (hpool : s.poolRoom (l.val * 64 + h.stream.toNat) 1 = true)
    (hlayby : s.laybyRoom (l.val * 64 + h.stream.toNat) 1 = true)
    (hchecks : failures (s.enqCheck l.val (l.val * 64 + h.stream.toNat) opWrCond h) = []) :
    let p := l.val * 64 + h.stream.toNat
    ∃ e, e.id = s.arrival ∧ e.op = opWrCond ∧ s.reqIn l.val opWrCond h slots =
      (((s.reqTaken l.val opWrCond h slots).queued (queueOf p h.tc.toNat) e (mkAns s.arrival opWrCond h false)).layAccept p
        (mkLay s.arrival opWrCond h slots false h.addr.toNat (h.sizeM1.toNat + 1) .mem)).moved l.val
          (s.pushed opWrCond h slots) :=
  State.reqIn_of_room hcan rfl (reqParts_of_whole rfl) hpool (fun _ => hlayby) hchecks

/-- A FENCE that passes every check and finds room (R143): a queue entry. No write waits in the lay-by of its port that could
answer the head of its queue (R91). -/
theorem State.reqIn_fence_of_room {s : State} {l : Fin 16} {h : Req} (hwf : s.tablesWf = true)
    (hcan : s.canEnter l.val h 0 = true) (hpool : s.poolRoom (l.val * 64 + h.stream.toNat) 1 = true)
    (hempty : (s.port (l.val * 64 + h.stream.toNat)).layby = [])
    (hchecks : failures (s.enqCheck l.val (l.val * 64 + h.stream.toNat) opFence h) = []) :
    let p := l.val * 64 + h.stream.toNat
    ∃ e, e.id = s.arrival ∧ e.op = opFence ∧ s.reqIn l.val opFence h [] =
      ((s.reqTaken l.val opFence h []).queued (queueOf p h.tc.toNat) e (mkAns s.arrival opFence h false)).moved l.val
        (s.pushed opFence h []) := by
  intro p
  obtain ⟨e, hid, hop, hreq⟩ :=
    State.reqIn_of_room (slots := []) hcan rfl (reqParts_of_whole rfl) hpool (fun hcond => absurd hcond (by decide)) hchecks
  refine ⟨e, hid, hop, hreq.trans ?_⟩
  rw [if_neg (by decide), State.tryForward_of_empty_layby]
  · rfl
  · rw [queueOf_div p h.tc.isLt, State.port_congr (State.queued_ports _ _ _), State.reqTaken_fence_port hwf, if_pos rfl]
    exact hempty

/-- Settles O24: both requests have one part and enter by `State.reqIn_of_room`; a conditional store goes on into the lay-by,
a FENCE is on the list of its port. -/
theorem condAndFenceQueued : Obligations.CondAndFenceQueued := by
  intro s l h slots hwf p q a n
  refine ⟨fun hcan hpool hlayby hchecks => ?cond, fun hcan hpool hempty hchecks => ?fence⟩
  case cond =>
    obtain ⟨e, hid, hop, hreq⟩ := State.reqIn_cond_of_room hcan hpool hlayby hchecks
    generalize hu : (s.reqTaken l.val opWrCond h slots).queued _ e _ = u at hreq
    have hrep := Reported.layAccept_of_cond (s := u) (p := p) (e := mkLay s.arrival opWrCond h slots false a n .mem) rfl
    obtain ⟨hqueue, hkept, hhome, hmem⟩ := State.moved_queued (l := l) (op := opWrCond) (h := h) (slots := slots) hwf
      (hrep.queues.trans (by rw [State.setPort_queues, hu]))
      (hrep.home.trans (by rw [State.setPort_home, ← hu, State.queued_home, State.reqTaken_home]))
      (hrep.mem.trans (by rw [State.setPort_mem, ← hu, State.queued_mem, State.reqTaken_mem]))
    have hport := State.layAccept_port_of_cond (s := u) (p := p)
      (e := mkLay s.arrival opWrCond h slots false a n .mem) rfl (by
        rw [← hu, State.queued_ports]
        exact State.twf_ports (State.wf_reqTaken hwf))
    have hsame (j : Nat) : u.port j = s.port j := by
      rw [← hu, State.port_congr (State.queued_ports _ e _), State.reqTaken_port_of_ne_fence (by decide)]
    simp only [hsame] at hport
    refine ⟨_, e, congrArg State.done hreq, hid, hop, (hqueue q).trans (if_pos rfl), ?_, ?_,
      fun j hj => (hqueue j).trans (if_neg hj), fun j hj => ((hkept j).trans (hport j)).trans (if_neg hj), hhome, hmem⟩
    · rw [hkept, hport, if_pos rfl]
    · rw [hkept, hport, if_pos rfl]
  case fence =>
    obtain ⟨e, hid, hop, hreq⟩ := State.reqIn_fence_of_room hwf hcan hpool hempty hchecks
    obtain ⟨hqueue, hkept, hhome, hmem⟩ := State.moved_queued (l := l) (h := h) (slots := []) (q := q) (e := e)
      (a := mkAns s.arrival opFence h false) hwf rfl ((State.queued_home _ e _).trans State.reqTaken_home)
      ((State.queued_mem _ e _).trans State.reqTaken_mem)
    have hport (j : Nat) := ((hkept j).trans (State.port_congr (State.queued_ports _ e _) j)).trans
      (State.reqTaken_fence_port hwf j)
    exact ⟨_, e, congrArg State.done hreq, hid, hop, (hqueue q).trans (if_pos rfl), (hport p).trans (if_pos rfl),
      fun j hj => (hqueue j).trans (if_neg hj), fun j hj => (hport j).trans (if_neg hj), hhome, hmem⟩

end Sys2Proof.Machine
end

section
/-! SUPPORT. Maintenance by register (R174 to R177, R186): the command word, the path of the eight commands to it, and the
operations that end at once. -/
namespace Sys2Proof.Machine

section
variable (s : State) (v : Word)

/-! ### The command word (R186) -/

@[simp] theorem State.writeReg_wp (o : Nat) : (s.writeReg o v).wp = s.wp := rfl

/-- `go` on a unit that is free accepts the operation, which starts when a slot of its pool is free. -/
theorem State.maintCmdWrite_of_go (hgo : v.getLsbD 31 = true) (hfree : s.wp.maintBusy = false) :
    s.maintCmdWrite v =
      State.settle { s.writeReg rMaintCmd v with wp := { s.wp with maintBusy := true, maintWait := some v } } := by
  simp [State.maintCmdWrite, hgo, hfree]

theorem State.maintCmdWrite_of_no_start (h : v.getLsbD 31 = false ∨ s.wp.maintBusy = true) :
    s.maintCmdWrite v = s.writeReg rMaintCmd v := by
  rcases h with hgo | hbusy
  · simp [-BitVec.getLsbD_eq_getElem, State.maintCmdWrite, hgo]
  · simp [State.maintCmdWrite, hbusy]

/-- The commands of R174 to R177, each with the operation number that names it in WPC_MAINT_CMD. -/
def maintCommands : List (Nat × Instr) :=
  [(1, .maintClean v), (2, .maintInvalidate v), (3, .maintCleanInvalidate v), (4, .lockFill v), (5, .unlockByAddress v),
    (8, .wayWriteBack v), (9, .wayEvict v), (10, .wayUnlock v)]

/-- Every maintenance command is the same write of WPC_MAINT_CMD; the word alone names the operation. -/
theorem exec_of_maintCommand {op : Nat} {c : Instr} (h : (op, c) ∈ maintCommands v) :
    exec c s = (s.ctl (·.maintCmdWrite v)).done := by
  simp only [maintCommands, List.mem_cons, Prod.mk.injEq, List.not_mem_nil, or_false] at h
  rcases h with ⟨-, rfl⟩ | ⟨-, rfl⟩ | ⟨-, rfl⟩ | ⟨-, rfl⟩ | ⟨-, rfl⟩ | ⟨-, rfl⟩ | ⟨-, rfl⟩ | ⟨-, rfl⟩ <;> rfl

/-! ### Operations that end at once (R176, R177, R186) -/

/-- Operation numbers 8 to 10 name a set and a way in the command word. -/
theorem State.maintStart_of_way (hlow : 8 ≤ field v 0 4) (hhigh : field v 0 4 ≤ 10) :
    s.maintStart v = s.maintWay (field v 0 4) (wayKey (field v 4 12) (field v 16 4)) := by
  rw [State.maintStart, if_neg (by omega), if_pos ⟨hlow, hhigh⟩]

theorem State.maintStart_of_beyond_memory (hlow : 1 ≤ field v 0 4) (hhigh : field v 0 4 ≤ 5) (h : s.memBytes ≤ s.maintAddr) :
    s.maintStart v = some (s.maintDone 2) := by
  rw [State.maintStart, if_pos ⟨hlow, hhigh⟩, if_pos h]

theorem State.maintWay_unlock (key : Nat) :
    s.maintWay 10 key = some ((s.putWay key { s.way key with lock := false }).maintDone 0) := rfl

theorem State.maintWay_of_invalid {op key : Nat} (hop : op ≠ 10) (h : (s.way key).valid = false) :
    s.maintWay op key = some (s.maintDone 0) := by
  simp [State.maintWay, hop, h]

end

/-! ### The statement -/

/-- Settles O49: the eight commands are one write of WPC_MAINT_CMD, whose word `go` starts; the operations that end at once by
the kind of their operation number. -/
theorem maintenanceByRegister : Obligations.MaintenanceByRegister := by
  refine ⟨fun s v op c hrun hsafe hidle _ hcmd => ?_, fun s v _ => ⟨fun hop => ?_, fun hop hway => ?_, ?_⟩⟩
  · have hexec : exec c s = .next (s.maintCmdWrite v).norm := by
      rw [exec_of_maintCommand s v hcmd, s.ctl_of_awake hrun hsafe hidle, State.done_next]
    exact ⟨fun hgo hfree => by rw [hexec, s.maintCmdWrite_of_go v hgo hfree]; rfl,
      fun h => by rw [hexec, s.maintCmdWrite_of_no_start v h]⟩
  · rw [s.maintStart_of_way v (by omega) (by omega), hop, s.maintWay_unlock]
  · rw [s.maintStart_of_way v (by omega) (by omega), s.maintWay_of_invalid (by omega) hway]
  · exact s.maintStart_of_beyond_memory v

end Sys2Proof.Machine
end

section
/-! SUPPORT. The age sweep over sets whose tags hold (R167, R168, R179), the oldest queued write-back (R169) and the oldest owed
rewrite (R194). -/
namespace Sys2Proof.Machine

/-- A walk over a list none of whose items changes the state. -/
theorem forEach_of_fixed {α : Type} {f : α → State → State} {s : State} (h : ∀ a, f a s = s) (as : List α) :
    forEach f as s = s := by
  induction as with
  | nil => rfl
  | cons a as ih => rw [forEach, h, ih]

section
variable {s : State}

/-! ### Work of a live device whose votes hold (R335) -/

theorem State.safe_ne_stop_of_live (h : s.live = true) : s.saf.safe ≠ .stop := by
  simp only [State.live, Bool.and_eq_true, bne_iff_ne] at h
  exact h.2

theorem State.withVotes_of_votesOk {used : Nat → Bool} (hsafe : s.saf.safe ≠ .stop)
    (hvotes : s.votesOk (s.votedUsed used) = true) (f : State → State) : s.withVotes used f = f s := by
  simp [State.withVotes, s.guardVotes_of_votesOk hvotes, hsafe]

/-- A command that does `f` where `due` says that there is something to do. -/
theorem State.done_of_due {used : Nat → Bool} {due : Bool} (hdue : due = true) (hlive : s.live = true)
    (hvotes : s.votesOk (s.votedUsed used) = true) (f : State → State) :
    State.done (if due then s.withVotes used f else s) = .next (f s).norm := by
  rw [if_pos hdue, State.withVotes_of_votesOk (State.safe_ne_stop_of_live hlive) hvotes, State.done_next]

/-! ### The age sweep (R167, R168, R179) -/

theorem tagSweep_of_parity_holds {set : Nat} (h : s.tagParity set = none) (n : Nat) : tagSweep set n s = s := by
  cases n with
  | zero => rfl
  | succ n => rw [tagSweep, h]

/-- Without errors that the second read no longer shows, the sweep visits the used sets alone. -/
theorem State.sweepTags_nil (s : State) :
    s.sweepTags [] = forEach (fun set s => if s.saf.safe == .stop then s else tagSweep set 16 s) s.setsUsed s := rfl

theorem State.sweepTags_of_parity_holds (h : ∀ set, s.tagParity set = none) : s.sweepTags [] = s := by
  rw [State.sweepTags_nil]
  exact forEach_of_fixed (fun set => by rw [tagSweep_of_parity_holds (h set), ite_self]) s.setsUsed

/-- The sixteenth that a sweep starts. -/
def State.nextSixteenth (s : State) : State := { s with wp := { s.wp with sixteenth := (s.wp.sixteenth + 1) % 16 } }

/-- The dirty lines whose stamp expires after sixteenth `n`, or all of them above seven eighths of the quota, are queued
(R167). -/
def State.queueExpiring (s : State) (n : Nat) : State :=
  forEach (fun (e : Nat × Way) t =>
    if decide (7 * s.dirtyQuota < 8 * s.dirtyCnt) || e.2.stamp == (n + 1) % 16 then t.queueAge e.1 (wayLine e.1 e.2) else t)
    s.dirtyWays s

/-- The sweep: the tags first, then the dirty lines, unless a tag error has stopped the device. -/
theorem State.ageSweep_eq (s : State) (errs : List Nat) :
    s.ageSweep errs =
      if (s.nextSixteenth.sweepTags errs).saf.safe == .stop then s.nextSixteenth.sweepTags errs
      else (s.nextSixteenth.sweepTags errs).queueExpiring s.nextSixteenth.wp.sixteenth := rfl

theorem State.ageSweep_of_parity_holds (hsafe : s.saf.safe ≠ .stop) (htags : ∀ set, s.nextSixteenth.tagParity set = none) :
    s.ageSweep [] = s.nextSixteenth.queueExpiring s.nextSixteenth.wp.sixteenth := by
  have hrun : ¬(s.nextSixteenth.saf.safe == .stop) = true := by simpa [State.nextSixteenth] using hsafe
  rw [State.ageSweep_eq, State.sweepTags_of_parity_holds htags, if_neg hrun]

theorem exec_ageSweepStart_of_live (hlive : s.live = true) (hvotes : s.votesOk (s.votedUsed usesHome) = true)
    (errs : List Nat) : exec (.ageSweepStart errs) s = .next (s.ageSweep errs).norm :=
  State.done_of_due hlive hlive hvotes (·.ageSweep errs)

/-! ### The oldest queued write-back (R169) -/

/-- A way that still holds the queued line, dirty, and finds a maintenance slot. -/
theorem State.nextWriteback_of_dirty {q : WbReq} {r : List WbReq} {x : Nat × State} (hq : s.wp.wbq = q :: r)
    (hvalid : (s.way q.way).valid = true) (hline : wayLine q.way (s.way q.way) = q.line)
    (hdirty : (s.way q.way).dirty = true)
    (hslot : ({ s with wp := { s.wp with wbq := r } }).takeSlot (sliceOf q.line) .maint = some x) :
    s.nextWriteback false = ((x.2.count 0x24 { addr := some (lineAddr q.line) }).register x.1
      { Slot.blank .writeBack .self q.line with todo := [.cleanWay q.way q.drop] }).settle := by
  simp [State.nextWriteback, hq, hvalid, hline, hdirty, hslot]

theorem exec_waypointWriteback_of_queued {q : WbReq} {r : List WbReq} (hlive : s.live = true)
    (hvotes : s.votesOk (s.votedUsed usesHome) = true) (hq : s.wp.wbq = q :: r) (parityErr : Bool) :
    exec (.waypointWriteback parityErr) s = .next (s.nextWriteback parityErr).norm :=
  State.done_of_due (by simp [hlive, hq]) hlive hvotes (·.nextWriteback parityErr)

/-! ### The oldest owed rewrite (R194) -/

section
variable {c : Correction} {r : List Correction}

/-- Something has written the frame since it was read: the rewrite falls away. -/
theorem State.correct_of_written_since (hc : s.sto.corrections = c :: r) (hfree : s.frameBusy noSlot c.key = false)
    (hchanged : s.image c.key ≠ c.read) (e verify : FrameErr) :
    s.correct e verify = { s with sto := { s.sto with corrections := r } } := by
  simp [State.correct, hc, hfree, hchanged]

theorem State.rewrite_of_no_verify (hverify : c.verify = false) (verify : FrameErr) :
    s.rewrite c verify = s.writeFrame c.key c.image := by
  simp [State.rewrite, hverify]

/-- The frame holds what was read, before and after the new read of it: it takes the corrected image. -/
theorem State.correct_of_same_image (hc : s.sto.corrections = c :: r) (hfree : s.frameBusy noSlot c.key = false)
    (hpass : s.bypassed c.key = false) (himage : s.image c.key = c.read) {e : FrameErr} {img : FrameImg} {u : State}
    (hread : s.bgRead c.key e false = .got img u) (himage' : u.image c.key = c.read) (hpass' : u.bypassed c.key = false)
    (verify : FrameErr) :
    s.correct e verify = ({ u with sto := { u.sto with corrections := r } }).rewrite c verify := by
  simp [State.correct, hc, hfree, hpass, himage, hread, himage', hpass']

theorem exec_correctionRewrite_of_owed (hlive : s.live = true) (hvotes : s.votesOk (s.votedUsed usesHome) = true)
    (hc : s.sto.corrections = c :: r) (e verify : FrameErr) :
    exec (.correctionRewrite e verify) s = .next (s.correct e verify).norm :=
  State.done_of_due (by simp [hlive, hc]) hlive hvotes (·.correct e verify)

end

theorem exec_correctionRewrite_of_none_owed (h : s.sto.corrections = []) (e verify : FrameErr) :
    exec (.correctionRewrite e verify) s = .next s.norm :=
  calc exec (.correctionRewrite e verify) s
      = State.done (if s.live && !s.sto.corrections.isEmpty then s.withVotes usesHome (·.correct e verify) else s) := rfl
    _ = .next s.norm := by rw [if_neg (by simp [h]), State.done_next]

end

/-! ### The statement -/

/-- Settles O36: a sweep over tags that hold is the walk over the dirty ways; the oldest entry of each queue is judged by what
its way or its frame holds now. -/
theorem ageSweepAndStoreQueues : Obligations.AgeSweepAndStoreQueues := by
  refine ⟨fun s hlive hvotes => ?_, fun s q r x hlive hvotes hq hvalid hline hdirty hslot => ?_,
    fun s c r e v hlive hvotes hc hfree => ⟨fun hpass himage hverify img u hread himage' hpass' => ?_, fun hchanged => ?_⟩,
    fun s e v h => exec_correctionRewrite_of_none_owed h e v⟩
  · intro n u htags
    rw [exec_ageSweepStart_of_live hlive hvotes,
      State.ageSweep_of_parity_holds (State.safe_ne_stop_of_live hlive) htags]
    rfl
  · rw [exec_waypointWriteback_of_queued hlive hvotes hq, State.nextWriteback_of_dirty hq hvalid hline hdirty hslot]
  · rw [exec_correctionRewrite_of_owed hlive hvotes hc,
      State.correct_of_same_image hc hfree hpass himage hread himage' hpass', State.rewrite_of_no_verify hverify]
  · rw [exec_correctionRewrite_of_owed hlive hvotes hc, State.correct_of_written_since hc hfree hchanged]

end Sys2Proof.Machine
end

section
/-! SUPPORT. Lane shift (R203): a frame's rank, its place in the rotation by `start`, and the slot of a rank, which lies before or
after the gap. A move takes one rank across the gap. -/
namespace Sys2Proof.Machine

/-! ### Ranks -/

/-- The place of a frame in the rotation of its segment. -/
def Lane.rank (a : Lane) (f : Nat) : Nat := (f + a.start) % 8192

/-- The frame at a place of the rotation. -/
def Lane.frameAt (a : Lane) (r : Nat) : Nat := (r + 8192 - a.start) % 8192

/-- The slot of a rank: the ranks fill the slots in order and leave out the gap. -/
def slotAround (gap r : Nat) : Nat := if gap ≤ r then r + 1 else r

section
variable (a : Lane)

theorem laneSlot_eq (f : Nat) : laneSlot a f = slotAround a.gap (a.rank f) := rfl

theorem Lane.rank_lt (f : Nat) : a.rank f < 8192 := Nat.mod_lt _ (by decide)

theorem Lane.frameAt_lt (r : Nat) : a.frameAt r < 8192 := Nat.mod_lt _ (by decide)

variable {a} (hstart : a.start < 8192)
include hstart

theorem Lane.rank_frameAt {r : Nat} (hr : r < 8192) : a.rank (a.frameAt r) = r := by
  unfold Lane.rank Lane.frameAt
  omega

theorem Lane.frameAt_rank {f : Nat} (hf : f < 8192) : a.frameAt (a.rank f) = f := by
  unfold Lane.rank Lane.frameAt
  omega

theorem Lane.rank_injective {f g : Nat} (hf : f < 8192) (hg : g < 8192) (h : a.rank f = a.rank g) : f = g := by
  rw [← Lane.frameAt_rank hstart hf, h, Lane.frameAt_rank hstart hg]

theorem Lane.rank_ne_of_ne_frameAt {f r : Nat} (hf : f < 8192) (h : f ≠ a.frameAt r) : a.rank f ≠ r := by
  rintro rfl
  exact h (Lane.frameAt_rank hstart hf).symm

end

/-! ### Slots around the gap -/

theorem slotAround_ne_gap (gap r : Nat) : slotAround gap r ≠ gap := by
  unfold slotAround
  split <;> omega

theorem slotAround_le {r : Nat} (hr : r < 8192) (gap : Nat) : slotAround gap r ≤ 8192 := by
  unfold slotAround
  split <;> omega

theorem slotAround_injective {gap r q : Nat} (h : slotAround gap r = slotAround gap q) : r = q := by
  unfold slotAround at h
  split at h <;> split at h <;> omega

theorem slotAround_before {gap r : Nat} (h : r < gap) : slotAround gap r = r := if_neg (Nat.not_le.2 h)

theorem slotAround_after {gap r : Nat} (h : gap ≤ r) : slotAround gap r = r + 1 := if_pos h

/-- The gap falls by one: only the rank just before it changes its slot. -/
theorem slotAround_of_gap_pred {g r : Nat} (h : r ≠ g) : slotAround g r = slotAround (g + 1) r := by
  unfold slotAround
  split <;> split <;> omega

/-- The gap goes from the first slot to the last while the ranks rotate: only the last rank changes its slot. -/
theorem slotAround_of_gap_wrapped {r : Nat} (hr : r < 8191) : slotAround 8192 ((r + 1) % 8192) = slotAround 0 r := by
  have hsucc : r + 1 < 8192 := by omega
  rw [Nat.mod_eq_of_lt hsucc, slotAround_before hsucc, slotAround_after (Nat.zero_le r)]

/-! ### One move -/

section
variable {a : Lane}

theorem Lane.move_of_gap_succ {g : Nat} (h : a.gap = g + 1) : a.move = (a.frameAt g, g, g + 1) := by
  simp [Lane.move, Lane.frameAt, h]

theorem Lane.move_of_gap_zero (h : a.gap = 0) : a.move = (a.frameAt 8191, 8192, 0) := by
  simp [Lane.move, Lane.frameAt, h]

theorem laneSlot_after_of_gap_succ {g : Nat} (h : a.gap = g + 1) (f : Nat) :
    laneSlot a.after f = slotAround g (a.rank f) := by
  simp [laneSlot_eq, Lane.after, Lane.rank, h]

theorem laneSlot_after_of_gap_zero (h : a.gap = 0) (f : Nat) :
    laneSlot a.after f = slotAround 8192 ((a.rank f + 1) % 8192) := by
  have hrank : (f + (a.start + 1) % 8192) % 8192 = ((f + a.start) % 8192 + 1) % 8192 := by omega
  simp [laneSlot_eq, Lane.after, Lane.rank, h, hrank]

variable (hstart : a.start < 8192)
include hstart

/-- What a move does to the slots: its frame goes from its source into the gap, every other frame stays. -/
theorem Lane.move_spec (hgap : a.gap ≤ 8192) :
    a.move.1 < 8192 ∧ laneSlot a a.move.1 = a.move.2.1 ∧ laneSlot a.after a.move.1 = a.move.2.2 ∧ a.move.2.2 = a.gap ∧
      ∀ f, f < 8192 → f ≠ a.move.1 → laneSlot a.after f = laneSlot a f := by
  cases h : a.gap with
  | zero =>
    have hrank : a.rank (a.frameAt 8191) = 8191 := Lane.rank_frameAt hstart (by decide)
    simp only [Lane.move_of_gap_zero h, laneSlot_after_of_gap_zero h, laneSlot_eq, h]
    refine ⟨a.frameAt_lt _, by rw [hrank]; rfl, by rw [hrank]; rfl, trivial, fun f hf hne => ?_⟩
    have hother : a.rank f ≠ 8191 := Lane.rank_ne_of_ne_frameAt hstart hf hne
    exact slotAround_of_gap_wrapped (Nat.lt_of_le_of_ne (Nat.le_of_lt_succ (a.rank_lt f)) hother)
  | succ g =>
    have hrank : a.rank (a.frameAt g) = g := Lane.rank_frameAt hstart (by omega)
    simp only [Lane.move_of_gap_succ h, laneSlot_after_of_gap_succ h, laneSlot_eq, h]
    refine ⟨a.frameAt_lt _, ?_, ?_, trivial, fun f hf hne => ?_⟩
    · rw [hrank, slotAround_before (Nat.lt_succ_self g)]
    · rw [hrank, slotAround_after (Nat.le_refl g)]
    · exact slotAround_of_gap_pred (Lane.rank_ne_of_ne_frameAt hstart hf hne)

end

/-! ### The statement -/

/-- Settles O37: frames have ranks of their own and ranks have slots of their own; a move by whether the gap is the first
slot. -/
theorem laneShiftMapping : Obligations.LaneShiftMapping := by
  intro a hstart hgap
  refine ⟨fun f _ => ⟨slotAround_le (a.rank_lt f) a.gap, slotAround_ne_gap a.gap (a.rank f)⟩, fun f g hf hg h => ?_,
    Lane.move_spec hstart hgap⟩
  exact Lane.rank_injective hstart hf hg (slotAround_injective h)

end Sys2Proof.Machine
end

section
/-! SUPPORT. Background work on the store (R203, R204, R206, R208): when each command runs, and what one move, one step of a
retirement and one visit of a pass do. -/
namespace Sys2Proof.Machine

section
variable {s : State}

/-! ### Lane shift moves (R203, R204) -/

theorem State.live_of_laneMay {n seg : Nat} (h : s.laneMay n seg = true) : s.live = true := by
  simp only [State.laneMay, Bool.and_eq_true] at h
  exact h.2

theorem exec_laneShiftMove_of_may {die : Fin 8} {seg : Fin 512} (hmay : s.laneMay die.val seg.val = true)
    (hvotes : s.votesOk (s.votedUsed usesHome) = true) (e : FrameErr) :
    exec (.laneShiftMove die seg e) s = .next (s.laneMove die.val seg.val e).norm :=
  State.done_of_due hmay (State.live_of_laneMay hmay) hvotes (·.laneMove die.val seg.val e)

theorem exec_laneShiftMove_of_may_not {die : Fin 8} {seg : Fin 512} (hmay : s.laneMay die.val seg.val = false)
    (e : FrameErr) : exec (.laneShiftMove die seg e) s = .next s.norm :=
  congrArg State.done (if_neg (by simp [hmay]))

/-- The lane shift state of a segment of a die. -/
def State.lane (s : State) (n seg : Nat) : Lane := tget laneDef (s.die n).lanes seg

/-- The frame that the next move of a segment takes along. -/
def State.laneFrame (s : State) (n seg : Nat) : Nat := (seg * 8192 + (s.lane n seg).move.1) * 8 + n

section
variable {n seg : Nat} (hmay : s.laneMay n seg = true) (hfree : s.frameBusy noSlot (s.laneFrame n seg) = false)
include hmay hfree

theorem State.laneMove_of_closed_source (hsrc : (s.die n).serve n ((s.die n).pseg seg) (s.lane n seg).move.2.1 = none)
    (e : FrameErr) : s.laneMove n seg e = s.laneEnd n seg (s.laneFrame n seg) voidFrame := by
  unfold State.laneFrame State.lane at *
  simp [State.laneMove, hmay, hfree, hsrc]

theorem State.laneMove_of_open_slots
    (hsrc : ((s.die n).serve n ((s.die n).pseg seg) (s.lane n seg).move.2.1).isSome = true) {e : FrameErr} {img : FrameImg}
    {u : State} (hread : s.bgRead (s.laneFrame n seg) e true = .got img u)
    (hdst : ((u.die n).serve n ((s.die n).pseg seg) (s.lane n seg).move.2.2).isSome = true) :
    s.laneMove n seg e = u.laneEnd n seg (s.laneFrame n seg) img := by
  have hsrc' := Option.ne_none_iff_isSome.2 hsrc
  have hdst' := Option.ne_none_iff_isSome.2 hdst
  unfold State.laneFrame State.lane at *
  simp [State.laneMove, hmay, hfree, hread, hsrc', hdst']

end

/-! ### Retirement (R206) -/

theorem exec_retirementCopy_of_running (honline : s.offline = false) (hlive : s.live = true)
    (hvotes : s.votesOk (s.votedUsed usesHome) = true) (die : Fin 8) (e : FrameErr) :
    exec (.retirementCopy die e) s = .next (s.retireStep die.val e).norm :=
  calc exec (.retirementCopy die e) s
      = State.done (if s.offline || !s.live then s else s.withVotes usesHome (·.retireStep die.val e)) := rfl
    _ = .next (s.retireStep die.val e).norm := by
      rw [if_neg (by simp [honline, hlive]), State.withVotes_of_votesOk (State.safe_ne_stop_of_live hlive) hvotes,
        State.done_next]

/-- The oldest retirement that is due begins, and copies its first frame at once. -/
theorem State.retireStep_of_due {n seg : Nat} {r : List Nat} (hnone : (s.die n).retire = none)
    (hdue : (s.die n).retireDue = seg :: r) (hopen : (s.die n).closed.contains seg = false) {x : Retire}
    (hbegun : ((s.retireBegin n seg).die n).retire = some x) (hspare : x.spare ≠ closingSeg) (e : FrameErr) :
    s.retireStep n e = (s.retireBegin n seg).retireCopy n x e := by
  unfold State.retireStep
  simp only [hnone, hdue, hopen, Bool.false_eq_true, if_false, hbegun, if_neg hspare]

/-! ### Resurfacing (R208) -/

theorem State.live_of_passMay {n : Nat} (h : s.passMay n = true) : s.live = true := by
  simp only [State.passMay, Bool.and_eq_true] at h
  exact h.2

theorem exec_resurfacingVisit_of_may {die : Fin 8} (hmay : s.passMay die.val = true)
    (hvotes : s.votesOk (s.votedUsed usesHome) = true) (e : FrameErr) :
    exec (.resurfacingVisit die e) s = .next (s.passVisit die.val e).norm :=
  State.done_of_due hmay (State.live_of_passMay hmay) hvotes (·.passVisit die.val e)

theorem exec_resurfacingVisit_of_may_not {die : Fin 8} (hmay : s.passMay die.val = false) (e : FrameErr) :
    exec (.resurfacingVisit die e) s = .next s.norm :=
  congrArg State.done (if_neg (by simp [hmay]))

section
variable {n : Nat}

theorem State.passVisit_of_bypassed (h : s.bypassed ((s.die n).passPos * 8 + n) = true) (e : FrameErr) :
    s.passVisit n e = s.passNext n := if_pos h

/-- A frame of another epoch than the pass clears is read and left as it is. -/
theorem State.passVisit_of_other_epoch (hpass : s.bypassed ((s.die n).passPos * 8 + n) = false)
    (hreads : (s.die n).rsReads ≠ 0) (hwrites : (s.die n).rsWrites ≠ 0) {e : FrameErr} {img : FrameImg} {u : State}
    (hread : s.bgRead ((s.die n).passPos * 8 + n) e true = .got img u) (hepoch : frameEpoch img ≠ nextEpoch u.sto.epoch) :
    s.passVisit n e = ((u.setDie n { u.die n with rsReads := (u.die n).rsReads - 1 }).count 0x2D {}).passNext n := by
  simp [State.passVisit, hpass, hreads, hwrites, hread, hepoch]

end

end

/-! ### The statement -/

/-- Settles O38: each of the three commands runs when it may, and then does one step, by what its frame and its slots are. -/
theorem storeUpkeep : Obligations.StoreUpkeep := by
  refine ⟨fun s die seg e => ?lane, fun s die e seg r honline hlive hvotes hnone hdue hopen x hbegun hspare => ?retire,
    fun s die e => ?pass⟩
  case lane =>
    intro n m f hvotes
    refine ⟨fun hmay => exec_laneShiftMove_of_may_not hmay e, fun hmay hfree hsrc => ?_,
      fun img u hmay hfree hsrc hread hdst => ?_⟩
    · rw [exec_laneShiftMove_of_may hmay hvotes, State.laneMove_of_closed_source hmay hfree hsrc]
      rfl
    · rw [exec_laneShiftMove_of_may hmay hvotes, State.laneMove_of_open_slots hmay hfree hsrc hread hdst]
      rfl
  case retire =>
    rw [exec_retirementCopy_of_running honline hlive hvotes, State.retireStep_of_due hnone hdue hopen hbegun hspare]
  case pass =>
    intro n hvotes
    refine ⟨fun hmay => exec_resurfacingVisit_of_may_not hmay e, fun hmay hclosed => ?_,
      fun img u hmay hpass hreads hwrites hread hepoch => ?_⟩
    · rw [exec_resurfacingVisit_of_may hmay hvotes, State.passVisit_of_bypassed hclosed]
    · rw [exec_resurfacingVisit_of_may hmay hvotes,
        State.passVisit_of_other_epoch hpass hreads hwrites hread hepoch]

end Sys2Proof.Machine
end

section
/-! SUPPORT. Line moves of a park and of an unpark (R210, R220 to R223), the end of a resize (R224) and of a pave (R271, R273). -/
namespace Sys2Proof.Machine

section
variable {s : State}

/-! ### Line moves (R220 to R222) -/

/-- The slot that is relocated into slot `k`. -/
def State.movingInto (s : State) (k : Nat) : Option (Nat × PSlot) :=
  s.prk.slots.find? (fun e => e.2.pstate == .moving && e.2.target == some k)

/-- Line `j` of the region of slot `k`. -/
def State.regionLine (s : State) (k j : Nat) : Nat := (s.pslot k).region * 16384 + j

section
variable {slot : Fin 1024} {line : Fin 16384} (hlive : s.live = true) (hvotes : s.votesOk (s.votedUsed usesHome) = true)
  {m : Nat}
include hlive

section
variable (hstate : (s.pslot slot.val).pstate = .parking)
include hstate

theorem exec_parkLineMove_of_not_ordered (hm : s.moveSlot slot.val (s.regionLine slot.val line.val) = none)
    (e : FrameErr) (d : DramIn) : exec (.parkLineMove slot line e d) s = .next s.norm := by
  show execParkLineMove slot line e d s = _
  unfold State.regionLine at hm
  simp [execParkLineMove, hlive, hstate, hm, State.done_next]

variable (hm : s.moveSlot slot.val (s.regionLine slot.val line.val) = some m)
include hvotes hm

theorem exec_parkLineMove_of_park (hsrc : s.movingInto slot.val = none) (e : FrameErr) (d : DramIn) :
    exec (.parkLineMove slot line e d) s =
      .next ((s.parkLine m slot.val line.val (s.regionLine slot.val line.val) e d).settle).norm := by
  show execParkLineMove slot line e d s = _
  unfold State.regionLine State.movingInto at *
  simp [execParkLineMove, hlive, hstate, hm, hsrc, State.done_next,
    State.withVotes_of_votesOk (State.safe_ne_stop_of_live hlive) hvotes]

theorem exec_parkLineMove_of_relocation {src : Nat × PSlot} (hsrc : s.movingInto slot.val = some src) (e : FrameErr)
    (d : DramIn) : exec (.parkLineMove slot line e d) s =
      .next ((s.relocateLine m src.1 slot.val line.val (s.regionLine slot.val line.val) e).settle).norm := by
  show execParkLineMove slot line e d s = _
  unfold State.regionLine State.movingInto at *
  simp [execParkLineMove, hlive, hstate, hm, hsrc, State.done_next,
    State.withVotes_of_votesOk (State.safe_ne_stop_of_live hlive) hvotes]

end

section
variable (hstate : (s.pslot slot.val).pstate = .unparking)
include hstate

theorem exec_unparkLineMove_of_not_ordered (hm : s.moveSlot slot.val (s.regionLine slot.val line.val) = none)
    (e : FrameErr) : exec (.unparkLineMove slot line e) s = .next s.norm := by
  show execUnparkLineMove slot line e s = _
  unfold State.regionLine at hm
  simp [execUnparkLineMove, hlive, hstate, hm, State.done_next]

include hvotes in
theorem exec_unparkLineMove_of_ordered (hm : s.moveSlot slot.val (s.regionLine slot.val line.val) = some m)
    (e : FrameErr) : exec (.unparkLineMove slot line e) s =
      .next ((s.unparkLine m slot.val line.val (s.regionLine slot.val line.val) e).settle).norm := by
  show execUnparkLineMove slot line e s = _
  unfold State.regionLine at *
  simp [execUnparkLineMove, hlive, hstate, hm, State.done_next,
    State.withVotes_of_votesOk (State.safe_ne_stop_of_live hlive) hvotes]

end

end

@[simp] theorem State.moveEnd_prk (m : Nat) : (s.moveEnd m).prk = s.prk := rfl
@[simp] theorem State.unparkMoved_spill (k j : Nat) : (s.unparkMoved k j).prk.spill = s.prk.spill := rfl

/-- A spilled line stays where it is and leaves the spill list (R223). -/
theorem State.unparkLine_of_spilled {x : Nat} (h : s.prk.spill.contains x = true) (m k j : Nat) (e : FrameErr) :
    s.unparkLine m k j x e = { (s.moveEnd m).unparkMoved k j with
      prk := { ((s.moveEnd m).unparkMoved k j).prk with spill := serase x s.prk.spill } } := by
  rw [State.unparkLine, if_pos h]
  simp

/-- No move starts beyond the 32 of a slot that may be in flight (R220). -/
theorem State.moveStart_of_full {k : Nat} (h : 32 ≤ s.moves k) (p : PSlot) : s.moveStart k p = none :=
  if_pos (by simp [h])

/-! ### The end of a resize (R224) -/

theorem exec_resizeDone_of_live (hlive : s.live = true) : exec .resizeDone s = .next s.resizeDone.norm :=
  congrArg State.done (if_pos hlive)

theorem State.resizeDone_of_nothing_left {n : Nat} (hsize : s.prk.resize = some n) (hdue : s.prk.resizeDue = [])
    (hslots : s.slotList = []) (hlines : s.resizeLines n = []) : s.resizeDone = s.resizeEnd n := by
  simp [State.resizeDone, hsize, hdue, hslots, hlines]

/-! ### The end of a pave (R271, R273) -/

theorem exec_paveDone_of_paving {g : BitVec 21} (hlive : s.live = true) (h : s.cry.paving.contains g.toNat = true) :
    exec (.paveDone g) s = .next (s.paveDone g.toNat).norm :=
  congrArg State.done (if_pos (by rw [h, hlive, Bool.and_self]))

theorem exec_paveDone_of_not_paving {g : BitVec 21} (h : s.cry.paving.contains g.toNat = false) :
    exec (.paveDone g) s = .next s.norm :=
  congrArg State.done (if_neg (by rw [h, Bool.false_and]; decide))

end

/-! ### The statement -/

/-- Settles O39: a line move by whether its transaction is ordered and, then, by what the move is for; the ends of a resize and
of a pave by whether they are under way. -/
theorem parkingMoves : Obligations.ParkingMoves := by
  refine ⟨fun s slot line e d => ?park, fun s k p h => State.moveStart_of_full h p, fun s slot line e => ?unpark,
    fun s n hlive hsize hdue hslots hlines => ?resize, fun s g hlive h => exec_paveDone_of_paving hlive h,
    fun s g h => exec_paveDone_of_not_paving h⟩
  case park =>
    intro k x src hlive hvotes hstate
    exact ⟨fun m hm hsrc => exec_parkLineMove_of_park hlive hvotes hstate hm hsrc e d,
      fun m y hm hsrc => exec_parkLineMove_of_relocation hlive hvotes hstate hm hsrc e d,
      fun hm => exec_parkLineMove_of_not_ordered hlive hstate hm e d⟩
  case unpark =>
    intro k x hlive hvotes hstate
    refine ⟨fun m hm hspilled => ?_, fun m hm _ => exec_unparkLineMove_of_ordered hlive hvotes hstate hm e,
      fun hm => exec_unparkLineMove_of_not_ordered hlive hstate hm e⟩
    rw [exec_unparkLineMove_of_ordered hlive hvotes hstate hm,
      State.unparkLine_of_spilled (x := s.regionLine k line.val) hspilled]
    rfl
  case resize =>
    rw [exec_resizeDone_of_live hlive, State.resizeDone_of_nothing_left hsize hdue hslots hlines]

end Sys2Proof.Machine
end

section
/-! SUPPORT. Test frames (R212), and the registers of the park partition: its size (R224), vacancy (R225) and the release of a lost
slot (R229). -/
namespace Sys2Proof.Machine

section
variable (s : State) (v : Word)

theorem State.done_ctl_of_awake (hrun : s.power.boot = .run) (hsafe : s.saf.safe ≠ .stop) (hidle : s.power.idle = false)
    (f : State → State) : (s.ctl f).done = .next (f s).norm := by
  rw [s.ctl_of_awake hrun hsafe hidle, State.done_next]

/-! ### Test frames (R212) -/

/-- The test frame that STO_TEST_CTRL selects. -/
def State.testFrameKey (s : State) : Nat := testKey (s.fld rTestCtrl 0 3) (s.fld rTestCtrl 3 6)

section
variable (hgo : v.getLsbD 31 = true)
include hgo

theorem State.testCtrlWrite_of_write (hwrite : (s.writeReg rTestCtrl v).bit rTestCtrl 9 = false) (e : FrameErr) :
    s.testCtrlWrite v e =
      let w := s.writeReg rTestCtrl v
      w.putFrame w.testFrameKey (flipBits w.testFlips (testImage (w.fld rTestCtrl 3 6))) := by
  simp [-BitVec.getLsbD_eq_getElem, State.testCtrlWrite, State.testFrameKey, hgo, hwrite]

theorem State.testCtrlWrite_of_read (hread : (s.writeReg rTestCtrl v).bit rTestCtrl 9 = true) (e : FrameErr) :
    s.testCtrlWrite v e = (s.writeReg rTestCtrl v).testRead (s.writeReg rTestCtrl v).testFrameKey e := by
  simp [-BitVec.getLsbD_eq_getElem, State.testCtrlWrite, State.testFrameKey, hgo, hread]

end

theorem State.testRead_of_uncorrectable {key : Nat} {e : FrameErr}
    (h : bchErrors (tget frameDef s.sto.frames key ^^^ e.e1) = none) : (s.testRead key e).sto.testOutcome = 3 := by
  rw [State.testRead, h]

/-! ### The size of the partition (R224) -/

@[simp] theorem State.writeReg_prk (o : Nat) : (s.writeReg o v).prk = s.prk := rfl

/-- The size in units of 128 slots that a word of PRK_CTRL asks for. -/
def askedSize (v : Word) : Nat := min 8 (field v 0 4)

section
variable {s v} (hidle : s.prk.resize = none)
include hidle

theorem State.parkSizeWrite_of_refused (h : s.shrinkRefused (askedSize v) = true) :
    s.parkSizeWrite v = s.err rPrkErr 6 0 .info none 0 := by
  unfold askedSize at h
  simp [State.parkSizeWrite, hidle, h]

variable (hroom : s.shrinkRefused (askedSize v) = false)
include hroom

theorem State.parkSizeWrite_of_same_size (h : askedSize v = s.prk.size) : s.parkSizeWrite v = s.writeReg rPrkCtrl v := by
  unfold askedSize at *
  simp only [State.parkSizeWrite, hidle, hroom, Option.isSome_none, Bool.false_eq_true, if_false]
  exact if_pos h

/-- A resize begins: the lines whose mapping changes have to be treated first (R185). -/
theorem State.parkSizeWrite_of_new_size (h : askedSize v ≠ s.prk.size) :
    s.parkSizeWrite v =
      let w := s.writeReg rPrkCtrl v
      State.settle { w with prk := { w.prk with resize := some (askedSize v), resizeDue := w.resizeLines (askedSize v) } } := by
  unfold askedSize at *
  simp [State.parkSizeWrite, hidle, hroom, h]

end

/-! ### Vacancy (R225) -/

/-- Regions outside a range that are vacant. -/
def State.vacantOutside (s : State) (first n : Nat) : List Nat :=
  s.prk.vacant.filter (fun x => decide (x < first) || decide (first + n ≤ x))

/-- The vacant regions with those of a range among them, in ascending order. -/
def State.vacantWith (s : State) (first n : Nat) : List Nat :=
  (s.vacantOutside first n).filter (fun x => decide (x < first)) ++ (List.range n).map (first + ·)
    ++ (s.vacantOutside first n).filter (fun x => decide (first < x))

/-- The first region of the range that PRK_VAC_BASE and a word of PRK_VAC_CMD name. -/
def State.vacFirst (s : State) : Nat := s.fld rVacBase 0 16

/-- The number of regions of that range. -/
def vacCount (v : Word) : Nat := max 1 (field v 0 17)

/-- A vacancy operation ends with these vacant regions and this result. -/
def State.vacEnd (s : State) (vacant : List Nat) (r : Nat) : State :=
  { s with prk := { s.prk with vacant := vacant, vacResult := BitVec.ofNat 2 r } }

section
variable {s v} (hgo : v.getLsbD 31 = true) (hfree : s.prk.vacBusy = false)
include hgo hfree

theorem State.vacCmdWrite_of_go :
    s.vacCmdWrite v =
      let w := s.writeReg rVacCmd v
      let r := w.vacRefused w.vacFirst (vacCount v)
      w.vacEnd (if r ≠ 0 then w.prk.vacant
        else if v.getLsbD 17 then w.vacantOutside w.vacFirst (vacCount v) else w.vacantWith w.vacFirst (vacCount v)) r := by
  rw [State.vacCmdWrite, if_neg (by simp [-BitVec.getLsbD_eq_getElem, hgo, hfree])]
  rfl

theorem State.vacCmdWrite_of_refused
    (h : (s.writeReg rVacCmd v).vacRefused (s.writeReg rVacCmd v).vacFirst (vacCount v) ≠ 0) :
    s.vacCmdWrite v =
      let w := s.writeReg rVacCmd v
      w.vacEnd w.prk.vacant (w.vacRefused w.vacFirst (vacCount v)) := by
  rw [State.vacCmdWrite_of_go hgo hfree]
  dsimp only
  rw [if_pos h]

section
variable (h : (s.writeReg rVacCmd v).vacRefused (s.writeReg rVacCmd v).vacFirst (vacCount v) = 0)
include h

theorem State.vacCmdWrite_of_withdraw (hout : v.getLsbD 17 = true) :
    s.vacCmdWrite v =
      let w := s.writeReg rVacCmd v
      w.vacEnd (w.vacantOutside w.vacFirst (vacCount v)) 0 := by
  rw [State.vacCmdWrite_of_go hgo hfree]
  dsimp only
  rw [if_neg (fun hr => hr h), if_pos hout, h]

theorem State.vacCmdWrite_of_declare (hin : v.getLsbD 17 = false) :
    s.vacCmdWrite v =
      let w := s.writeReg rVacCmd v
      w.vacEnd (w.vacantWith w.vacFirst (vacCount v)) 0 := by
  rw [State.vacCmdWrite_of_go hgo hfree]
  dsimp only
  rw [if_neg (fun hr => hr h), if_neg (by rw [hin]; decide), h]

end

end

/-! ### Release of a lost slot (R229) -/

theorem State.releaseWrite_of_lost (hgo : v.getLsbD 31 = true) (hlost : (s.pslot (field v 0 10)).pstate = .lost) :
    s.releaseWrite v =
      let w := s.writeReg rPrkRelease v
      let k := field v 0 10
      let u := w.setPslot k { s.pslot k with pstate := w.freeState k false }
      { u with prk := { u.prk with vacant := sinsert (s.pslot k).region u.prk.vacant } } := by
  have hlost' : ((s.writeReg rPrkRelease v).pslot (field v 0 10)).pstate = .lost := hlost
  rw [State.releaseWrite, if_neg (by simp [-BitVec.getLsbD_eq_getElem, hgo, hlost'])]
  rfl

end

/-! ### The statement -/

/-- Settles O50: each command is the write of its register in an awake device; the write by what its word asks for and whether it
is refused. -/
theorem testFramesAndParkRegisters : Obligations.TestFramesAndParkRegisters := by
  refine ⟨fun s v e hrun hsafe hidle hgo => ?frames, fun s v hrun hsafe hidle => ?registers⟩
  case frames =>
    have hserve := s.done_ctl_of_awake hrun hsafe hidle
    refine ⟨fun hwrite => (hserve _).trans ?_, fun hread => (hserve _).trans ?_, State.testRead_of_uncorrectable _⟩
    · rw [s.testCtrlWrite_of_write v hgo hwrite]
      rfl
    · rw [s.testCtrlWrite_of_read v hgo hread]
      rfl
  case registers =>
    have hserve := s.done_ctl_of_awake hrun hsafe hidle
    refine ⟨fun hnone hrefused => (hserve _).trans ?_, fun hnone hroom hsame => (hserve _).trans ?_,
      fun hnone hroom hnew => (hserve _).trans ?_, fun hgo hfree => ?_, fun hgo hlost => (hserve _).trans ?_⟩
    · rw [State.parkSizeWrite_of_refused hnone hrefused]
    · rw [State.parkSizeWrite_of_same_size hnone hroom hsame]
    · rw [State.parkSizeWrite_of_new_size hnone hroom hnew]
      rfl
    · refine ⟨fun hdone hout => (hserve _).trans ?_, fun hdone hin => (hserve _).trans ?_,
        fun hrefused => (hserve _).trans ?_⟩
      · rw [State.vacCmdWrite_of_withdraw hgo hfree hdone hout]
        rfl
      · rw [State.vacCmdWrite_of_declare hgo hfree hdone hin]
        rfl
      · rw [State.vacCmdWrite_of_refused hgo hfree hrefused]
        rfl
    · rw [s.releaseWrite_of_lost v hgo hlost]

end Sys2Proof.Machine
end

section
/-! SUPPORT. Channels at rest and between commands: refresh and RFM (R245, R246), the switch to writes and idle rows (R241), power
states (R253) and retraining (R250). -/
namespace Sys2Proof.Machine

/-! ### What yields to a command that waits (R245) -/

section
variable {c : Chan} (hready : c.retraining = false)

theorem Chan.yields_of_below_eight {owed : Nat} (h : owed < 8) : c.yields true owed = true := by
  simp [Chan.yields, h]

include hready

theorem Chan.yields_eight : c.yields true 8 = false := by
  simp [Chan.yields, hready]

theorem Chan.yields_of_idle_bank (owed : Nat) : c.yields false owed = false := by
  simp [Chan.yields, hready]

end

section
variable {s : State} {c b : Nat} (hkept : (s.chan c).pstate.selfKept = false)
include hkept

/-! ### Refresh (R245) -/

section
variable (htrained : s.mem.trained = true)
include htrained

/-- A bank that is ahead pays with a refresh that was pulled in. -/
theorem State.refreshDue_of_ahead (h : tget zeroDef (s.chan c).ahead b ≠ 0) (pull : Nat) :
    s.refreshDue c b true pull =
      s.setChan c { s.chan c with ahead := tset zeroDef (s.chan c).ahead b (tget zeroDef (s.chan c).ahead b - 1) } := by
  simp [State.refreshDue, htrained, hkept, h]

variable (hlevel : tget zeroDef (s.chan c).ahead b = 0)
include hlevel

theorem State.refreshDue_of_not_ahead (busy : Bool) (pull : Nat) :
    s.refreshDue c b busy pull =
      let owed := tget zeroDef (s.chan c).owed b
      if (s.chan c).yields busy owed then
        s.setChan c { s.chan c with owed := tset zeroDef (s.chan c).owed b (min 8 (owed + 1)) }
      else if busy then (s.emitTimes (.refresh c b) 1).rollBack c b
      else (((s.setChan c { s.chan c with owed := tset zeroDef (s.chan c).owed b 0 }).emitTimes (.refresh c b)
        (owed + 1)).rollBack c b).pullIn c b pull := by
  simp [State.refreshDue, htrained, hkept, hlevel]

theorem State.refreshDue_of_waiting (h : tget zeroDef (s.chan c).owed b < 8) (pull : Nat) :
    s.refreshDue c b true pull =
      s.setChan c { s.chan c with owed := tset zeroDef (s.chan c).owed b (tget zeroDef (s.chan c).owed b + 1) } := by
  rw [State.refreshDue_of_not_ahead hkept htrained hlevel]
  dsimp only
  rw [if_pos (Chan.yields_of_below_eight h), Nat.min_eq_right h]

variable (hready : (s.chan c).retraining = false)
include hready

theorem State.refreshDue_of_owing_eight (h : tget zeroDef (s.chan c).owed b = 8) (pull : Nat) :
    s.refreshDue c b true pull = (s.emitTimes (.refresh c b) 1).rollBack c b := by
  rw [State.refreshDue_of_not_ahead hkept htrained hlevel]
  simp [h, Chan.yields_eight hready]

theorem State.refreshDue_of_idle_bank (pull : Nat) :
    s.refreshDue c b false pull =
      (((s.setChan c { s.chan c with owed := tset zeroDef (s.chan c).owed b 0 }).emitTimes (.refresh c b)
        (tget zeroDef (s.chan c).owed b + 1)).rollBack c b).pullIn c b pull := by
  rw [State.refreshDue_of_not_ahead hkept htrained hlevel]
  simp [Chan.yields_of_idle_bank hready]

end

/-! ### RFM (R246) -/

section
variable (hreached : s.rfmReached c b = true)
include hreached

theorem State.rfmDue_of_waiting (h : tget zeroDef (s.chan c).rfmOwed b < 8) :
    s.rfmDue c b true =
      s.setChan c { s.chan c with rfmOwed := tset zeroDef (s.chan c).rfmOwed b (tget zeroDef (s.chan c).rfmOwed b + 1) } := by
  simp [State.rfmDue, hkept, hreached, Chan.yields_of_below_eight h, Nat.min_eq_right h]

theorem State.rfmDue_of_idle_bank (hready : (s.chan c).retraining = false) :
    s.rfmDue c b false =
      ((s.setChan c { s.chan c with rfmOwed := tset zeroDef (s.chan c).rfmOwed b 0 }).emitTimes (.rfm c b)
        (tget zeroDef (s.chan c).rfmOwed b + 1)).rollBack c b := by
  simp [State.rfmDue, hkept, hreached, Chan.yields_of_idle_bank hready]

end

end

theorem State.rfmDue_of_not_reached {s : State} {c b : Nat} (h : s.rfmReached c b = false) (busy : Bool) :
    s.rfmDue c b busy = s := by
  simp [State.rfmDue, h]

section
variable {s : State} {ch : Fin 16}

/-! ### Writes that wait and idle rows (R241) -/

theorem exec_writeAgeSwitch_of_writes (h : (s.chan ch.val).writes ≠ []) :
    exec (.writeAgeSwitch ch) s =
      .next ((s.setChan ch.val { s.chan ch.val with draining := true }).chanGo ch.val).norm := by
  have hwrites : ¬ (s.chan ch.val).writes.isEmpty = true := by simpa using h
  exact congrArg State.done (if_neg hwrites)

theorem exec_rowIdleClose_of_open {bank : Fin 32} {row : Nat} (h : tget noneDef (s.chan ch.val).rows bank.val = some row) :
    exec (.rowIdleClose ch bank) s =
      .next ((s.setChan ch.val { s.chan ch.val with rows := tset noneDef (s.chan ch.val).rows bank.val none }).emit
        (.precharge ch.val bank.val)).norm := by
  have hopen : ¬ (tget noneDef (s.chan ch.val).rows bank.val).isNone = true := by simp [h]
  exact congrArg State.done (if_neg hopen)

/-! ### Power states (R253) -/

theorem exec_powerDownEntry_of_idle (hact : (s.chan ch.val).pstate = .active) (hidle : (s.chan ch.val).idle = true)
    (hrows : (s.chan ch.val).rows = []) (hwait : s.fld rMemPwr 0 16 ≠ 0) :
    exec (.powerDownEntry ch) s = .next (s.setChan ch.val { s.chan ch.val with pstate := .powerDown }).norm :=
  congrArg State.done (if_pos (by simp [hact, hidle, hrows, hwait]))

theorem exec_selfRefreshEntry_of_idle (hpower : s.power.idle = true) (hidle : (s.chan ch.val).idle = true)
    (hstate : (s.chan ch.val).pstate = .active ∨ (s.chan ch.val).pstate = .powerDown) (hwait : s.fld rMemPwr 16 16 ≠ 0) :
    exec (.selfRefreshEntry ch) s = .next ((s.prechargeAll ch.val).setChan ch.val
      { (s.prechargeAll ch.val).chan ch.val with pstate := .selfRefresh }).norm :=
  congrArg State.done (if_pos (by simp [hpower, hidle, hstate, hwait]))

/-! ### Retraining (R250) -/

theorem exec_channelRetrain_of_many_corrections (hready : (s.chan ch.val).retraining = false)
    (h : 16 < (s.chan ch.val).eccTick) :
    exec (.channelRetrain ch) s = .next ((s.setChan ch.val { s.chan ch.val with
      retraining := true, retrainCnt := satInc (s.chan ch.val).retrainCnt 255, eccTick := 0 }).err rMemErr 7 4 .c none 0).norm :=
  congrArg State.done (if_neg (by simp [hready, h]))

theorem exec_channelRetrain_of_few_corrections (h : (s.chan ch.val).eccTick ≤ 16) :
    exec (.channelRetrain ch) s = .next s.norm :=
  congrArg State.done (if_pos (by simp [h]))

/-- The two delays are the next two free values. -/
theorem State.retrained_of_retraining {c : Nat} (h : (s.chan c).retraining = true) :
    s.retrained c = (({ s with free := s.free + 2 } : State).setChan c { s.chan c with
      retraining := false, rdqDelay := Config.freeNat s.free, wdqDelay := Config.freeNat (s.free + 1) }).chanGo c :=
  if_pos h

theorem State.retrained_of_ready {c : Nat} (h : (s.chan c).retraining = false) : s.retrained c = s := by
  simp [State.retrained, h]

end

/-! ### The commands of `refreshDue`, `rfmDue` and `retrained` -/

theorem exec_refreshDue_busy (ch : Fin 16) (bank : Fin 32) (s : State) :
    exec (.refreshDue ch bank .busy) s = .next (s.refreshDue ch.val bank.val true 0).norm := rfl

theorem exec_refreshDue_idle (ch : Fin 16) (bank : Fin 32) (n : Fin 9) (s : State) :
    exec (.refreshDue ch bank (.idle n)) s = .next (s.refreshDue ch.val bank.val false n.val).norm := rfl

theorem exec_rfmDue (ch : Fin 16) (bank : Fin 32) (busy : Bool) (s : State) :
    exec (.rfmDue ch bank busy) s = .next (s.rfmDue ch.val bank.val busy).norm := rfl

theorem exec_channelRetrainDone (ch : Fin 16) (s : State) :
    exec (.channelRetrainDone ch) s = .next (s.retrained ch.val).norm := rfl

/-! ### The statement -/

/-- Settles O40: refresh and RFM by whether the bank is ahead, waits or is idle; every other command by whether its guard
holds. -/
theorem channelUpkeep : Obligations.ChannelUpkeep := by
  refine ⟨fun s ch bank hact hready => ?refresh, fun s ch bank => ?between⟩
  case refresh =>
    have hkept : (s.chan ch.val).pstate.selfKept = false := by rw [hact]; rfl
    refine ⟨fun htrained hlevel hless => ?_, fun htrained hlevel height => ?_, fun n htrained hlevel => ?_,
      fun htrained hahead => ?_, fun busy hbelow => ?_, fun hreached hless => ?_, fun hreached => ?_⟩
    · rw [exec_refreshDue_busy, State.refreshDue_of_waiting hkept htrained hlevel hless]
    · rw [exec_refreshDue_busy, State.refreshDue_of_owing_eight hkept htrained hlevel hready height]
    · rw [exec_refreshDue_idle, State.refreshDue_of_idle_bank hkept htrained hlevel hready]
    · rw [exec_refreshDue_busy, State.refreshDue_of_ahead hkept htrained hahead]
    · rw [exec_rfmDue, State.rfmDue_of_not_reached hbelow]
    · rw [exec_rfmDue, State.rfmDue_of_waiting hkept hreached hless]
    · rw [exec_rfmDue, State.rfmDue_of_idle_bank hkept hreached hready]
  case between =>
    refine ⟨exec_writeAgeSwitch_of_writes, fun _ => exec_rowIdleClose_of_open, exec_powerDownEntry_of_idle,
      exec_selfRefreshEntry_of_idle, exec_channelRetrain_of_many_corrections, exec_channelRetrain_of_few_corrections,
      fun hbusy => ?_, fun hready => ?_⟩
    · rw [exec_channelRetrainDone, State.retrained_of_retraining hbusy]
    · rw [exec_channelRetrainDone, State.retrained_of_ready hready]

end Sys2Proof.Machine
end

section
/-! SUPPORT. Signpost: what serving an accepted command comes to (R306 to R314), whatever its operation. -/
namespace Sys2Proof.Machine

section
variable {s u : State} {p : Path} {c : Cmd} {key : Option Key}

theorem State.path_of_nextCmd (h : s.nextCmd p = some c) : c.path = p := by
  cases p with
  | host =>
    obtain ⟨w, -, rfl⟩ := Option.map_eq_some_iff.1 h
    rfl
  | i3c =>
    simp only [State.nextCmd] at h
    split at h
    · cases h
      rfl
    · cases h

theorem State.wake_of_not_idle (h : s.power.idle = false) : s.wake = s := if_neg (ne_true_of_eq_false h)

/-- An accepted command is answered as its operation says, on the path it came on and under the key of its session. -/
theorem State.signpost_of_accepts (h : s.accepts p c key u) {want : Nat → Bool} (hwant : want c.opcode = true)
    {run : State → Cmd → Option Key → Done} {st : Nat} {res : List Nat} {t : State} (hrun : run u c key = .now st res t) :
    s.signpost p want run = t.replyWith p c key st res := by
  obtain ⟨hidle, hnext, hserves, hpre, n, hauth, hlevel⟩ := h
  obtain rfl : c.path = p := State.path_of_nextCmd hnext
  simp only [State.signpost, State.wake_of_not_idle hidle, hnext, hwant, hserves, Bool.and_self, if_true, State.serve, hpre, hauth,
    if_neg (Nat.not_lt.2 hlevel), hrun, State.replyWith]

end

end Sys2Proof.Machine
end

section
/-! SUPPORT. Key slots (R260): what KEY_LOAD and KEY_UNLOAD answer, the bits of a word of flags, and a write of CRY_CTRL. -/
namespace Sys2Proof.Machine

/-! ### KEY_LOAD and KEY_UNLOAD -/

/-- The key slot that a key command names. -/
def Cmd.keySlot (c : Cmd) : Nat := c.params.getD 0 0

/-- The parameters name a slot that software loads, and their reserved bytes are 0. -/
def Cmd.keySlotOk (c : Cmd) : Prop := 1 ≤ c.keySlot ∧ c.keySlot ≤ 15 ∧ zeroAt c.params 1 3 = true

section
variable {u : State} {c : Cmd} (key : Option Key) (hslot : c.keySlotOk)
include hslot

theorem Cmd.not_badParam_of_keySlotOk : ¬(c.keySlot = 0 ∨ 15 < c.keySlot ∨ !(zeroAt c.params 1 3)) := by
  obtain ⟨hlow, hhigh, hzero⟩ := hslot
  rintro (hnone | hbeyond | hreserved)
  · omega
  · omega
  · simp [hzero] at hreserved

theorem doKeyLoad_of_enabled (h : u.ksEnabled c.keySlot = true) : doKeyLoad u c key = .now sRefused [] u :=
  (if_neg (Cmd.not_badParam_of_keySlotOk hslot)).trans (if_pos h)

theorem doKeyUnload_of_enabled (h : u.ksEnabled c.keySlot = true) : doKeyUnload u c key = .now sRefused [] u :=
  (if_neg (Cmd.not_badParam_of_keySlotOk hslot)).trans (if_pos h)

theorem doKeyUnload_of_disabled (h : u.ksEnabled c.keySlot = false) :
    doKeyUnload u c key = .now sOk [] (u.setCry { u.cry with keys := tset noneDef u.cry.keys c.keySlot none }) :=
  (if_neg (Cmd.not_badParam_of_keySlotOk hslot)).trans (if_neg (ne_true_of_eq_false h))

end

/-! ### A word of flags -/

/-- The sum that packs `m` flags, the flag of `k` at bit `k`. -/
def flagSum (f : Nat → Bool) (m : Nat) : Nat :=
  ((List.range m).map (fun k => (k, flag (f k)))).foldl (fun n x => n + x.2 * 2 ^ x.1) 0

/-- The word that packs `m` flags. -/
def packFlags (f : Nat → Bool) (m : Nat) : Word := pack ((List.range m).map (fun k => (k, flag (f k))))

theorem testBit_flag (b : Bool) : (flag b).testBit 0 = b := by
  cases b <;> rfl

section
variable (f : Nat → Bool)

theorem flagSum_succ (m : Nat) : flagSum f (m + 1) = 2 ^ m * flag (f m) + flagSum f m := by
  simp only [flagSum, List.range_succ, List.map_append, List.foldl_append, List.map_cons, List.map_nil, List.foldl_cons,
    List.foldl_nil]
  rw [Nat.add_comm, Nat.mul_comm]

theorem flagSum_lt_two_pow (m : Nat) : flagSum f m < 2 ^ m := by
  induction m with
  | zero => exact Nat.one_pos
  | succ m ih =>
    have hflag : flag (f m) ≤ 1 := by cases f m <;> decide
    calc flagSum f (m + 1) = 2 ^ m * flag (f m) + flagSum f m := flagSum_succ f m
      _ < 2 ^ m * 1 + 2 ^ m := Nat.add_lt_add_of_le_of_lt (Nat.mul_le_mul_left _ hflag) ih
      _ = 2 ^ (m + 1) := by rw [Nat.mul_one, Nat.pow_succ, Nat.mul_two]

variable {k m : Nat}

theorem testBit_flagSum (hk : k < m) : (flagSum f m).testBit k = f k := by
  induction m with
  | zero => omega
  | succ m ih =>
    rw [flagSum_succ, Nat.testBit_two_pow_mul_add _ (flagSum_lt_two_pow f m)]
    by_cases hlast : k < m
    · rw [if_pos hlast, ih hlast]
    · obtain rfl : k = m := by omega
      rw [if_neg hlast, Nat.sub_self, testBit_flag]

theorem getLsbD_packFlags (hm : m ≤ 32) (hk : k < m) : (packFlags f m).getLsbD k = f k := by
  have hword : packFlags f m = BitVec.ofNat 32 (flagSum f m) := rfl
  rw [hword, BitVec.getLsbD_ofNat, testBit_flagSum f hk]
  simp [Nat.lt_of_lt_of_le hk hm]

end

/-! ### A write of CRY_CTRL -/

section
variable (s : State) (v : Word)

theorem State.ksNext_of_set {k : Nat} (h : v.getLsbD k = true) :
    s.ksNext v k = (s.ksEnabled k || (s.slotKeys k).isSome) := if_pos h

theorem State.ksNext_of_cleared {k : Nat} (h : v.getLsbD k = false) :
    s.ksNext v k = (s.ksEnabled k && s.slotNamed k) := if_neg (ne_true_of_eq_false h)

/-- The word that a write of CRY_CTRL stores. -/
def State.ksTaken (s : State) (v : Word) : Word := packFlags (s.ksNext v) 16

theorem State.ksEnWrite_of_taken (h : s.ksTaken v = v &&& 0xffff) :
    s.ksEnWrite v = s.writeReg rCryCtrl (s.ksTaken v) := if_pos h

theorem State.ksEnWrite_of_refused (h : s.ksTaken v ≠ v &&& 0xffff) :
    s.ksEnWrite v = (s.writeReg rCryCtrl (s.ksTaken v)).cfgRefused := if_neg h

variable {s}

theorem exec_ksEnWrite_of_votesOk (hrun : s.power.boot = .run) (hsafe : s.saf.safe ≠ .stop) (hidle : s.power.idle = false)
    (hvotes : s.votesOk (s.votedUsed usesConfig) = true) : exec (.ksEnWrite v) s = .next (s.ksEnWrite v).norm :=
  calc exec (.ksEnWrite v) s
      = (s.ctl (·.withVotes usesConfig (·.ksEnWrite v))).done := rfl
    _ = .next (s.withVotes usesConfig (·.ksEnWrite v)).norm := s.done_ctl_of_awake hrun hsafe hidle _
    _ = .next (s.ksEnWrite v).norm := by rw [State.withVotes_of_votesOk hsafe hvotes]

end

/-! ### The statement -/

/-- Settles O47: the commands by whether the slot is enabled, the write of CRY_CTRL by whether the word it stores is the one
written, whose bits are the flags `State.ksNext`. -/
theorem keySlotRules : Obligations.KeySlotRules := by
  refine ⟨fun s p c key u hacc => ?commands, fun s v hrun hsafe hidle hvotes => ?write⟩
  case commands =>
    intro n refused hlow hhigh hzero
    have hslot : c.keySlotOk := ⟨hlow, hhigh, hzero⟩
    refine ⟨fun hop hon => ?_, fun hop hon => ?_, fun hop hoff => ?_⟩
    · exact congrArg State.done (State.signpost_of_accepts hacc (by simp [hop]) (doKeyLoad_of_enabled key hslot hon))
    · exact congrArg State.done (State.signpost_of_accepts hacc (by simp [hop]) (doKeyUnload_of_enabled key hslot hon))
    · exact congrArg State.done (State.signpost_of_accepts hacc (by simp [hop]) (doKeyUnload_of_disabled key hslot hoff))
  case write =>
    have hexec := exec_ksEnWrite_of_votesOk v hrun hsafe hidle hvotes
    refine ⟨fun htaken => hexec.trans ?_, fun hrefused => hexec.trans ?_, fun k => getLsbD_packFlags _ (by decide),
      fun k _ => s.ksNext_of_set v, fun k _ => s.ksNext_of_cleared v⟩
    · rw [s.ksEnWrite_of_taken v htaken]
      rfl
    · rw [s.ksEnWrite_of_refused v hrefused]
      rfl

end Sys2Proof.Machine
end

section
/-! SUPPORT. Encryption windows (R265, R271): the offsets of a window's registers, and a write of one by whether the window is
valid before it and would be after it. -/
namespace Sys2Proof.Machine

section
variable {s : State} {n : Fin 64} {f : Fin 4} {v : Word}

/-! ### The registers of a window -/

/-- The offset of register `f` of window `n`: base, limit, tag base, and an offset without a register. -/
def windowOffset (n : Fin 64) (f : Fin 4) : Nat := 0x80100 + n.val * 16 + f.val * 4

theorem windowOffset_bounds (n : Fin 64) (f : Fin 4) : 0x80100 ≤ windowOffset n f ∧ windowOffset n f < 0x80500 := by
  unfold windowOffset
  omega

theorem windowOffset_window (n : Fin 64) (f : Fin 4) : (windowOffset n f - 0x80100) / 16 = n.val := by
  unfold windowOffset
  omega

theorem windowOffset_mod_eq_zero_iff (n : Fin 64) (f : Fin 4) : windowOffset n f % 16 = 0 ↔ f.val = 0 := by
  unfold windowOffset
  omega

/-- An offset among the windows is none of those that `State.ctlWrite` asks for before them. -/
theorem State.ctlWrite_of_window {o : Nat} (h : 0x80100 ≤ o ∧ o < 0x80500) :
    s.ctlWrite o v = s.withVotes usesConfig (·.winWrite o v) := by
  have hlnk : ¬(0x11000 ≤ o ∧ o < 0x12000 ∧ o % 0x100 = 0) := by omega
  have hbudget : ¬(0x21000 ≤ o ∧ o < 0x22000) := by omega
  have houtside : ∀ r ∈ [rHomRsv, rPrtGctl, rMaintCmd, rTestCtrl, rPrkCtrl, rVacCmd, rPrkRelease, rCryCtrl],
      ¬(0x80100 ≤ r ∧ r < 0x80500) := by decide
  have hnamed := fun r hr (heq : o = r) => houtside r hr (heq ▸ h)
  simp only [List.forall_mem_cons, imp_false] at hnamed
  simp only [State.ctlWrite, hlnk, hbudget, hnamed, h, if_false, and_self, if_true]

theorem exec_windowWrite_of_votesOk (hrun : s.power.boot = .run) (hsafe : s.saf.safe ≠ .stop) (hidle : s.power.idle = false)
    (hvotes : s.votesOk (s.votedUsed usesConfig) = true) :
    exec (.windowWrite (BitVec.ofNat 23 (windowOffset n f)) v) s = .next (s.winWrite (windowOffset n f) v).norm := by
  have hbounds := windowOffset_bounds n f
  have hoff : (BitVec.ofNat 23 (windowOffset n f)).toNat = windowOffset n f := by
    rw [BitVec.toNat_ofNat, Nat.mod_eq_of_lt (by omega)]
  calc exec (.windowWrite (BitVec.ofNat 23 (windowOffset n f)) v) s
      = (s.ctl (·.ctlWrite (BitVec.ofNat 23 (windowOffset n f)).toNat v)).done := rfl
    _ = .next (s.ctlWrite (windowOffset n f) v).norm := by rw [s.done_ctl_of_awake hrun hsafe hidle, hoff]
    _ = .next (s.winWrite (windowOffset n f) v).norm := by
      rw [State.ctlWrite_of_window hbounds, State.withVotes_of_votesOk hsafe hvotes]

/-! ### A write to a valid window -/

section
variable (hvalid : s.winValid n.val = true)
include hvalid

theorem State.winWrite_of_valid :
    s.winWrite (windowOffset n f) v =
      if f.val = 0 ∧ !(v.getLsbD 31) then (s.unpave n.val).writeReg (windowOffset n f) v
      else if (s.writeReg (windowOffset n f) v).reg (windowOffset n f) = s.reg (windowOffset n f) then s else s.cfgRefused := by
  simp only [State.winWrite, windowOffset_window, windowOffset_mod_eq_zero_iff, hvalid, if_true]

theorem State.winWrite_of_invalidate (hbase : f.val = 0) (hclear : v.getLsbD 31 = false) :
    s.winWrite (windowOffset n f) v = (s.unpave n.val).writeReg (windowOffset n f) v := by
  rw [State.winWrite_of_valid hvalid, if_pos ⟨hbase, by rw [hclear]; rfl⟩]

theorem State.winWrite_of_change (hkept : f.val = 0 → v.getLsbD 31 = true)
    (hchange : (s.writeReg (windowOffset n f) v).reg (windowOffset n f) ≠ s.reg (windowOffset n f)) :
    s.winWrite (windowOffset n f) v = s.cfgRefused := by
  have hstays : ¬(f.val = 0 ∧ !(v.getLsbD 31)) := by
    rintro ⟨hbase, hclear⟩
    simp [-BitVec.getLsbD_eq_getElem, hkept hbase] at hclear
  rw [State.winWrite_of_valid hvalid, if_neg hstays, if_neg hchange]

end

/-! ### A write to a window that is not valid -/

section
variable (hinvalid : s.winValid n.val = false)
include hinvalid

theorem State.winWrite_of_invalid :
    s.winWrite (windowOffset n f) v =
      let w := s.writeReg (windowOffset n f) v
      if w.winValid n.val then
        if w.winOk n.val then w.unpave n.val else (w.putBit (windowOffset n f) 31 false).cfgRefused
      else w := by
  simp only [State.winWrite, windowOffset_window, hinvalid, Bool.false_eq_true, if_false]

theorem State.winWrite_of_stays_invalid (h : (s.writeReg (windowOffset n f) v).winValid n.val = false) :
    s.winWrite (windowOffset n f) v = s.writeReg (windowOffset n f) v := by
  simp only [State.winWrite_of_invalid hinvalid, h, Bool.false_eq_true, if_false]

variable (hset : (s.writeReg (windowOffset n f) v).winValid n.val = true)
include hset

theorem State.winWrite_of_validate (h : (s.writeReg (windowOffset n f) v).winOk n.val = true) :
    s.winWrite (windowOffset n f) v = (s.writeReg (windowOffset n f) v).unpave n.val := by
  simp only [State.winWrite_of_invalid hinvalid, hset, h, if_true]

theorem State.winWrite_of_against_rules (h : (s.writeReg (windowOffset n f) v).winOk n.val = false) :
    s.winWrite (windowOffset n f) v =
      ((s.writeReg (windowOffset n f) v).putBit (windowOffset n f) 31 false).cfgRefused := by
  simp only [State.winWrite_of_invalid hinvalid, hset, h, if_true, Bool.false_eq_true, if_false]

end

end

/-! ### The statement -/

/-- Settles O46: the command is `State.winWrite`, by whether the window is valid before the write and would be after it. -/
theorem windowRules : Obligations.WindowRules := by
  intro s n f v hrun hsafe hidle hvotes _
  have hexec := exec_windowWrite_of_votesOk (n := n) (f := f) (v := v) hrun hsafe hidle hvotes
  exact ⟨fun hvalid hbase hclear => hexec.trans (by rw [State.winWrite_of_invalidate hvalid hbase hclear]; rfl),
    fun hvalid hkept hchange => hexec.trans (by rw [State.winWrite_of_change hvalid hkept hchange]),
    fun hinvalid h => hexec.trans (by rw [State.winWrite_of_stays_invalid hinvalid h]; rfl),
    fun hinvalid hset hok => hexec.trans (by rw [State.winWrite_of_validate hinvalid hset hok]; rfl),
    fun hinvalid hset hbad => hexec.trans (by rw [State.winWrite_of_against_rules hinvalid hset hbad]; rfl)⟩

end Sys2Proof.Machine
end

section
/-! SUPPORT. The start of a DMA descriptor: from the command to the first fc of the descriptor (R277, R278), and what that fc
does by class and operation (R219 to R221, R273, R281, R286). -/
namespace Sys2Proof.Machine

/-! ### What a class accepts (R277, R286) -/

section
variable {d : Desc} {n : Nat}

theorem persistent_of_le (hn : 48 ≤ n) : persistent n = true := decide_eq_true hn

theorem not_persistent_of_lt (hn : n < 48) : persistent n = false := decide_eq_false (Nat.not_le.2 hn)

theorem Desc.accepted_of_every_class (hop : d.op ∈ [0x0, 0x1, 0x2, 0x6, 0x7, 0x8, 0xf]) : d.accepted n = true := by
  simp only [List.mem_cons, List.not_mem_nil, or_false] at hop
  rcases hop with h | h | h | h | h | h | h <;> simp [Desc.accepted, h]

theorem Desc.accepted_of_persistent (hn : 48 ≤ n) (hop : d.op ∈ [0x3, 0x4, 0x5]) : d.accepted n = true := by
  simp only [List.mem_cons, List.not_mem_nil, or_false] at hop
  rcases hop with h | h | h <;> simp [Desc.accepted, persistent_of_le hn, h]

theorem Desc.accepted_of_bulk (hn : n < 48) (hop : d.op ∈ [0x3, 0x4, 0x5]) : d.accepted n = false := by
  simp only [List.mem_cons, List.not_mem_nil, or_false] at hop
  rcases hop with h | h | h <;> simp [Desc.accepted, not_persistent_of_lt hn, h]

end

/-! ### The first fc of a descriptor (R281, R286) -/

section
variable {s : State} {d : Desc} {n : Nat}

theorem State.dmaBegin_of_not_accepted (h : d.accepted n = false) : s.dmaBegin n d = s.dmaComplete n 3 1 := by
  simp [State.dmaBegin, h]

theorem State.dmaBegin_of_nop_or_link (hop : d.op = 0x0 ∨ d.op = 0xf) : s.dmaBegin n d = s.dmaComplete n 0 0 := by
  have hacc : d.accepted n = true := Desc.accepted_of_every_class (by rcases hop with h | h <;> simp [h])
  rcases hop with h | h <;> simp [State.dmaBegin, hacc, h]

/-- A PARK or UNPARK that its domain may make begins. `State.parkGo` is unfolded as a function that stands without its
arguments: applied to them, the kernel would try to evaluate the access check of 2 ^ 21 bytes. -/
theorem State.parkGo_of_permitted {region : Nat}
    (hcheck : s.dmaCheck (s.dch n).ad.toNat (regionBase region) (2 ^ 21) false true = none) (f : State → State) :
    s.parkGo n region f = f s := by
  generalize hgo : @State.parkGo = go
  delta State.parkGo at hgo
  subst hgo
  simp only [hcheck]

theorem State.dmaBegin_of_park (hn : 48 ≤ n) (hop : d.op = 0x4) (hreason : s.parkReason d = 0)
    (hcheck : s.dmaCheck (s.dch n).ad.toNat (regionBase (d.src.toNat / 2 ^ 21)) (2 ^ 21) false true = none) :
    s.dmaBegin n d = s.parkBegin (d.src.toNat / 2 ^ 21) (d.param.toNat % 1024) := by
  have hacc : d.accepted n = true := Desc.accepted_of_persistent hn (by simp [hop])
  simp [State.dmaBegin, hacc, hop, hreason, State.parkGo_of_permitted hcheck, -Nat.reducePow]

theorem State.dmaBegin_of_unpark (hn : 48 ≤ n) (hop : d.op = 0x5) (hreason : s.unparkReason d = 0)
    (hcheck : s.dmaCheck (s.dch n).ad.toNat (regionBase (s.pslot (d.param.toNat % 1024)).region) (2 ^ 21) false true = none) :
    s.dmaBegin n d = s.unparkBegin (d.param.toNat % 1024) := by
  have hacc : d.accepted n = true := Desc.accepted_of_persistent hn (by simp [hop])
  simp [State.dmaBegin, hacc, hop, hreason, State.parkGo_of_permitted hcheck, -Nat.reducePow]

theorem State.dmaBegin_of_empty (hop : d.op = 0x1 ∨ d.op = 0x2) (hlen : d.length = 0) :
    s.dmaBegin n d = s.dmaComplete n 0 0 := by
  have hacc : d.accepted n = true := Desc.accepted_of_every_class (by rcases hop with h | h <;> simp [h])
  rcases hop with h | h <;> simp [State.dmaBegin, hacc, h, hlen]

theorem State.dmaBegin_of_pave (hn : 48 ≤ n) (hop : d.op = 0x3) (hlen : d.length ≠ 0) :
    s.dmaBegin n d = paveRange n (s.dch n).ad.toNat d d.granules s := by
  have hacc : d.accepted n = true := Desc.accepted_of_persistent hn (by simp [hop])
  simp [State.dmaBegin, hacc, hop, hlen]

theorem State.dmaBegin_of_copy (hop : d.op = 0x1) (hlen : d.length ≠ 0) :
    s.dmaBegin n d = if d.overlaps then s.dmaComplete n 3 6 else s.dmaRun n d := by
  have hacc : d.accepted n = true := Desc.accepted_of_every_class (by simp [hop])
  simp [State.dmaBegin, hacc, hop, hlen]

/-- A FILL or a range operation with a length begins to issue. -/
theorem State.dmaBegin_of_lines (hop : d.op ∈ [0x2, 0x6, 0x7, 0x8]) (hlen : d.length ≠ 0) :
    s.dmaBegin n d = s.dmaRun n d := by
  simp only [List.mem_cons, List.not_mem_nil, or_false] at hop
  have hacc : d.accepted n = true := Desc.accepted_of_every_class (by rcases hop with h | h | h | h <;> simp [h])
  rcases hop with h | h | h | h <;> simp [State.dmaBegin, hacc, h, hlen]

end

/-! ### From the command to the descriptor (R277, R278) -/

section
variable {s : State} {d : Desc} {r : List Desc} {n : Nat}

theorem State.safe_ne_stop_of_dmaOpen (h : s.dmaOpen = true) : s.saf.safe ≠ .stop := by
  simp only [State.dmaOpen, Bool.and_eq_true, bne_iff_ne] at h
  exact h.2

theorem State.dmaReserved_of_defined_op (hdescs : (s.dch n).descs = d :: r) (hop : ¬(9 ≤ d.op.toNat ∧ d.op.toNat ≤ 14)) :
    s.dmaReserved n = s := by
  simp only [State.dmaReserved, hdescs, hop, decide_false, Bool.and_false, Bool.false_eq_true, if_false]

/-- The event of an operation, on a channel that runs and has no descriptor, takes up the next one in the list if it is of
this operation, and does its first fc. -/
theorem State.done_dmaOp_of_next (hcur : (s.dch n).cur = none) (hdescs : (s.dch n).descs = d :: r)
    (hrun : (s.dch n).state = .run) (hopen : s.dmaOpen = true) (hvotes : s.votesOk (s.votedUsed (usesDma n)) = true)
    {op : BitVec 4} (hdefined : ¬(9 ≤ op.toNat ∧ op.toNat ≤ 14)) (hop : d.op = op) {t : State}
    (hbegin : (s.dmaTakeDesc n d).dmaBegin n d = t) : (s.dmaOp n op).done = .next t.norm := by
  have hready : (s.dch n).ready = true := by simp [DmaCh.ready, hrun, hcur]
  have hkept : s.dmaReserved n = s := State.dmaReserved_of_defined_op hdescs (hop ▸ hdefined)
  rw [State.dmaOp, State.withVotes_of_votesOk (State.safe_ne_stop_of_dmaOpen hopen) hvotes]
  simp [hkept, hcur, hdescs, hop, hready, hopen, hbegin, State.done_next]

end

/-! ### The statement -/

/-- Settles O41: each command takes up the next descriptor, and its first fc goes by the class, the operation, the length and,
for a PARK or UNPARK, what would refuse it, in the order of log entry 41. -/
theorem dmaDescriptorStarts : Obligations.DmaDescriptorStarts := by
  constructor
  · intro s ch d r n hcur hdescs hrun hopen hvotes u
    have hstart := @State.done_dmaOp_of_next s d r n hcur hdescs hrun hopen hvotes
    refine ⟨fun hop => ?nop, fun hop => ?link, fun hop hlen => ?empty, fun hop hlen hapart => ?copy,
      fun hop hlen hoverlap => ?overlap, fun hop hlen => ?fill, fun hop hlen => ?clean, fun hop hlen => ?inval,
      fun hop hlen => ?cleanInval⟩
    case nop => exact hstart (by decide) hop (State.dmaBegin_of_nop_or_link (.inl hop))
    case link => exact hstart (by decide) hop (State.dmaBegin_of_nop_or_link (.inr hop))
    case empty =>
      have hbegin := State.dmaBegin_of_empty (s := u) (n := n) hop hlen
      rcases hop with hcopy | hfill
      · rw [if_pos hcopy]
        exact hstart (by decide) hcopy hbegin
      · rw [if_neg (by simp [hfill])]
        exact hstart (by decide) hfill hbegin
    case copy => exact hstart (by decide) hop (by rw [State.dmaBegin_of_copy hop hlen, if_neg (ne_true_of_eq_false hapart)])
    case overlap => exact hstart (by decide) hop (by rw [State.dmaBegin_of_copy hop hlen, if_pos hoverlap])
    case fill => exact hstart (by decide) hop (State.dmaBegin_of_lines (by simp [hop]) hlen)
    case clean => exact hstart (by decide) hop (State.dmaBegin_of_lines (by simp [hop]) hlen)
    case inval => exact hstart (by decide) hop (State.dmaBegin_of_lines (by simp [hop]) hlen)
    case cleanInval => exact hstart (by decide) hop (State.dmaBegin_of_lines (by simp [hop]) hlen)
  · intro s ch d r n hcur hdescs hrun hopen hvotes u
    have hstart := @State.done_dmaOp_of_next s d r n hcur hdescs hrun hopen hvotes
    have hrefuse (hn : n < 48) (hop : d.op ∈ [0x3, 0x4, 0x5]) : u.dmaBegin n d = u.dmaComplete n 3 1 :=
      State.dmaBegin_of_not_accepted (Desc.accepted_of_bulk hn hop)
    exact ⟨fun hn hop hreason hcheck => hstart (by decide) hop (State.dmaBegin_of_park hn hop hreason hcheck),
      fun hn hop hreason hcheck => hstart (by decide) hop (State.dmaBegin_of_unpark hn hop hreason hcheck),
      fun hn hop hlen => hstart (by decide) hop (State.dmaBegin_of_pave hn hop hlen),
      fun hn hop => hstart (by decide) hop (hrefuse hn (by simp [hop])),
      fun hn hop => hstart (by decide) hop (hrefuse hn (by simp [hop])),
      fun hn hop => hstart (by decide) hop (hrefuse hn (by simp [hop]))⟩

end Sys2Proof.Machine
end

section
/-! SUPPORT. The fetch of a DMA list (R279), the end of a descriptor of which nothing is left or in flight (R285 to R287), and
the stop of a channel (R288, R289). -/
namespace Sys2Proof.Machine

/-! ### A descriptor line (R278, R279) -/

/-- The descriptors of a fetched line, from address `addr` to the end of the line. -/
def lineDescs (line : Line) (addr : Nat) : List Desc :=
  (List.range (4 - addr % 128 / 32)).map (fun k =>
    descOf line (addr % 128 / 32 + k) (addr / 128 * 128 + 32 * (addr % 128 / 32 + k)))

/-- Descriptors up to and with the first `last` or LINK. -/
def throughEnd (ds : List Desc) : List Desc := ds.take ((ds.takeWhile (fun d => !d.ends)).length + 1)

section
variable {s : State} {n : Nat}

theorem State.dmaArrive_of_line {line : Line} {addr : Nat} (h : (s.dch n).fetched = some (some line, addr)) :
    s.dmaArrive n = s.setDch n { s.dch n with
      fetched := none, descs := (s.dch n).descs ++ throughEnd (lineDescs line addr)
      tokens := (s.dch n).tokens - ((lineDescs line addr).length - (throughEnd (lineDescs line addr)).length)
      fetchAddr := (addr / 128 + 1) * 128 } := by
  rw [State.dmaArrive, h]
  rfl

/-! ### A channel with nothing to fetch -/

theorem State.dmaArrive_of_none (h : (s.dch n).fetched = none) : s.dmaArrive n = s := by rw [State.dmaArrive, h]

theorem State.dmaFetchFail_of_none (h : (s.dch n).fetched = none) : s.dmaFetchFail n = s := by rw [State.dmaFetchFail, h]

theorem State.dmaReserved_of_no_descs (h : (s.dch n).descs = []) : s.dmaReserved n = s := by rw [State.dmaReserved, h]

theorem State.dmaFetch_of_not_running (h : (s.dch n).state ≠ .run) : s.dmaFetch n = s := by
  simp [State.dmaFetch, State.dmaMayFetch, h]

/-! ### The end of a descriptor (R285 to R287) -/

section
variable {d : Desc} (hcur : (s.dch n).cur = some d) (hflight : (s.dch n).prog.inFlight = 0)
  (hhalted : (s.dch n).prog.halted = false) (hbad : (s.dch n).prog.badReason = 0)
include hflight hhalted hbad

theorem State.dmaBroken_of_sound (hone : (s.dch n).prog.readBack ≠ 1) (hfive : (s.dch n).prog.readBack ≠ 5) :
    s.dmaBroken n = none := by
  simp [State.dmaBroken, hflight, hhalted, hbad, hone, hfive]

include hcur

theorem State.dmaReadback_of_answered (hop : d.op = 1 ∨ d.op = 2) (hactive : (s.dch n).state.active = true)
    (hback : (s.dch n).prog.readBack = 2) :
    s.dmaReadback n = s.dmaComplete n (if (s.dch n).prog.poison then 1 else 0) 0 := by
  have hsound : s.dmaBroken n = none := State.dmaBroken_of_sound hflight hhalted hbad (by simp [hback]) (by simp [hback])
  rcases hop with h | h <;> simp [State.dmaReadback, hcur, h, hactive, hflight, hsound, hback]

variable (hback : (s.dch n).prog.readBack = 0)
include hback

theorem State.dmaRange_of_lines_done (hop : d.op = 6 ∨ d.op = 7 ∨ d.op = 8) (hactive : (s.dch n).state.active = true)
    (hlines : rangeLines d.src.toNat d.length ≤ (s.dch n).prog.nextWrite) :
    s.dmaRange n = s.dmaComplete n (if (s.dch n).prog.poison then 1 else 0) 0 := by
  have hsound : s.dmaBroken n = none := State.dmaBroken_of_sound hflight hhalted hbad (by simp [hback]) (by simp [hback])
  have hready : s.dmaRangeReady d (s.dch n).prog = true := by
    rcases hop with h | h | h <;> simp [State.dmaRangeReady, h, hlines, hflight]
  rcases hop with h | h | h <;> simp [State.dmaRange, hcur, h, hactive, hsound, hready]

/-! ### The stop (R288, R289) -/

theorem State.dmaStop_of_descriptor (hn : n < 48) (hstate : (s.dch n).state = .stopping)
    (hfetch : (s.dch n).fetchBusy = false) :
    s.dmaStop n = (s.setDch n { s.dch n with
      status := 5, reason := 0, lastTag := d.tag, doneCnt := (s.dch n).doneCnt + 1
      resume := (s.dch n).prog.resumeAt d }).dmaStopped n := by
  have hsound : s.dmaBroken n = none := State.dmaBroken_of_sound hflight hhalted hbad (by simp [hback]) (by simp [hback])
  simp [State.dmaStop, hstate, hfetch, hcur, not_persistent_of_lt hn, hflight, hback, hsound]

end

/-- Between two descriptors a bulk channel shows status STOPPED, a persistent one the status of the last descriptor. -/
theorem State.dmaStop_between_descriptors (hcur : (s.dch n).cur = none) (hstate : (s.dch n).state = .stopping)
    (hfetch : (s.dch n).fetchBusy = false) :
    s.dmaStop n =
      (if persistent n then s else s.setDch n { s.dch n with status := 5, reason := 0 }).dmaStopped n := by
  simp [State.dmaStop, hcur, hstate, hfetch]

theorem State.dmaStop_of_not_stopping (h : (s.dch n).state ≠ .stopping) : s.dmaStop n = s := by
  simp [State.dmaStop, h]

end

/-! ### The commands -/

section
variable (s : State) (ch : Fin 64)

theorem exec_dmaDescriptorFetch : exec (.dmaDescriptorFetch ch) s =
    .next ((((s.dmaArrive ch.val).dmaFetchFail ch.val).dmaReserved ch.val).dmaFetch ch.val).norm := rfl

theorem exec_dmaReadbackDone : exec (.dmaReadbackDone ch) s = .next (s.dmaReadback ch.val).norm := rfl

theorem exec_dmaRangeDone : exec (.dmaRangeDone ch) s = .next (s.dmaRange ch.val).norm := rfl

theorem exec_dmaStopComplete : exec (.dmaStopComplete ch) s = .next (s.dmaStop ch.val).norm := rfl

end

/-! ### The statement -/

/-- Settles O42: a fetch takes in the line that has arrived; a descriptor that nothing has broken ends by what is left of it;
a stop by whether a descriptor runs, which then counts as done (log entry 41), and by the class. -/
theorem dmaDescriptorEnds : Obligations.DmaDescriptorEnds := by
  intro s ch n c
  refine ⟨fun hstate hfetched hdescs => ?idle, exec_dmaDescriptorFetch s ch, fun line hfetched i hi hwf => ?line,
    fun d hcur hop hactive hflight hhalted hbad hback => ?readback,
    fun d hcur hop hactive hflight hhalted hbad hback hlines => ?range,
    fun d hcur hn hstate hfetch hflight hhalted hbad hback => ?stopInside, fun hcur hn hstate hfetch => ?stopBulk,
    fun hcur hn hstate hfetch => ?stopPersistent, fun hstate => ?noStop⟩
  case idle =>
    have hnotrun : (s.dch n).state ≠ .run := by simp [c, hstate]
    rw [exec_dmaDescriptorFetch, State.dmaArrive_of_none hfetched, State.dmaFetchFail_of_none hfetched,
      State.dmaReserved_of_no_descs hdescs, State.dmaFetch_of_not_running hnotrun]
  case line =>
    subst hi
    rw [State.dmaArrive_of_line hfetched, State.dch_setDch s hwf, if_pos rfl]
    exact ⟨rfl, rfl, rfl⟩
  case readback =>
    rw [exec_dmaReadbackDone, State.dmaReadback_of_answered hcur hflight hhalted hbad hop hactive hback]
  case range =>
    rw [exec_dmaRangeDone, State.dmaRange_of_lines_done hcur hflight hhalted hbad hback hop hactive hlines]
  case stopInside =>
    rw [exec_dmaStopComplete, State.dmaStop_of_descriptor hcur hflight hhalted hbad hback hn hstate hfetch]
  case stopBulk =>
    rw [exec_dmaStopComplete, State.dmaStop_between_descriptors hcur hstate hfetch,
      if_neg (ne_true_of_eq_false (not_persistent_of_lt hn))]
  case stopPersistent =>
    rw [exec_dmaStopComplete, State.dmaStop_between_descriptors hcur hstate hfetch, if_pos (persistent_of_le hn)]
  case noStop => rw [exec_dmaStopComplete, State.dmaStop_of_not_stopping hstate]

end Sys2Proof.Machine
end

section
/-! SUPPORT. The machine as a whole: every meaning ends by bringing the tables into canonical form (log entry 59), and what a
register reads whose three copies agree (R12, R14). -/
namespace Sys2Proof.Machine

/-! ### A step -/

theorem step_of_command {s : State} {c : Instr} {r : List Instr} (h : s.pending = c :: r) :
    step s = exec c { s with pending := r } := by rw [step, h]

/-- Every meaning answers a next state, and brings its tables into canonical form first (log entries 3 and 59). -/
theorem exec_eq_next_norm (c : Instr) (s : State) : ∃ u : State, exec c s = .next u.norm := by
  cases c <;> exact ⟨_, rfl⟩

theorem exec_tablesWf {c : Instr} {s t : State} (h : exec c s = .next t) : t.tablesWf = true := by
  obtain ⟨u, hu⟩ := exec_eq_next_norm c s
  obtain rfl : u.norm = t := by rw [hu] at h; injection h
  exact u.norm_wf

/-- A step without a command brings the tables into canonical form, or leaves the state as it stands. -/
theorem idleFc_tablesWf {s : State} (h : s.tablesWf = true) : (idleFc s).tablesWf = true := by
  unfold idleFc
  split
  · exact State.norm_wf _
  · split
    · exact State.norm_wf _
    · exact h

/-! ### A register whose copies agree -/

theorem majority_self (a : Nat) : majority a a a = some a := if_pos rfl

theorem voteField_of_equal_copies (w : Word) (lo width : Nat) : voteField ⟨w, w, w⟩ lo width = some (field w lo width) :=
  majority_self _

theorem getLsbD_fieldMask (lo width i : Nat) :
    (fieldMask lo width).getLsbD i = (decide (i < 32) && decide (lo ≤ i) && decide (i < lo + width)) := by
  rw [fieldMask, BitVec.getLsbD_ofNat, Nat.testBit_mul_two_pow, Nat.testBit_two_pow_sub_one]
  by_cases hlo : lo ≤ i
  · simp [hlo, Nat.sub_lt_iff_lt_add' hlo]
  · simp [hlo]

/-- Putting a field of a word back in place changes nothing. -/
theorem put_field_back (w : Word) (lo width : Nat) :
    (w &&& ~~~(fieldMask lo width)) ||| BitVec.ofNat 32 (field w lo width * 2 ^ lo) = w := by
  refine BitVec.eq_of_getLsbD_eq fun i hi => ?_
  have hfield : (BitVec.ofNat 32 (field w lo width * 2 ^ lo)).getLsbD i =
      (decide (lo ≤ i) && decide (i < lo + width) && w.getLsbD i) := by
    rw [BitVec.getLsbD_ofNat, Nat.testBit_mul_two_pow, field, Nat.testBit_mod_two_pow, Nat.testBit_div_two_pow]
    by_cases hlo : lo ≤ i
    · simp [-BitVec.getLsbD_eq_getElem, hi, hlo, Nat.sub_lt_iff_lt_add' hlo, BitVec.getLsbD]
    · simp [hlo]
  rw [BitVec.getLsbD_or, BitVec.getLsbD_and, BitVec.getLsbD_not, getLsbD_fieldMask, hfield]
  cases w.getLsbD i with
  | false => simp
  | true => simp [hi]; omega

/-- Three copies that agree are the word that is used, whatever its layout (R14). -/
theorem votedWord_of_equal_copies (o : Nat) (w : Word) : votedWord o ⟨w, w, w⟩ = w := by
  unfold votedWord
  generalize (layout o).voted = fs
  induction fs with
  | nil => rfl
  | cons f fs ih =>
    simp only [List.foldl_cons, voteField_of_equal_copies, put_field_back]
    simpa only [voteField_of_equal_copies] using ih

/-- A register that nothing has written reads its reset value (R16). -/
theorem State.reg_of_unwritten {s : State} {o : Nat} (h : s.reg3 o = csrInit o) : s.reg o = (layout o).reset := by
  rw [State.reg, h]
  exact votedWord_of_equal_copies o _

/-! ### The statements -/

/-- Settles O4: a command ends in `State.norm`, and a step without one ends there or changes nothing. -/
theorem stepKeepsCanonical : Obligations.StepKeepsCanonical := by
  intro s t hwf hstep
  cases hpending : s.pending with
  | nil =>
    rw [step_of_no_command s hpending] at hstep
    injection hstep with ht
    exact ht ▸ idleFc_tablesWf hwf
  | cons c r =>
    rw [step_of_command hpending] at hstep
    exact exec_tablesWf hstep

/-- Settles O1: by the front of the queue, and by the form of every meaning. -/
theorem stepRunsFrontCommand : Obligations.StepRunsFrontCommand := by
  refine ⟨fun c r s h => step_of_command h, fun c s => ?_⟩
  obtain ⟨u, hu⟩ := exec_eq_next_norm c s
  exact ⟨u.norm, hu⟩

/-- Settles O5: by the laws of the tables, each table with the value that its unlisted keys read as. -/
theorem canonicalForm : Obligations.CanonicalForm := by
  refine ⟨fun s k => ?reads, fun s h => ⟨s.norm_eq h, s.done_eq h⟩, fun t k j v h => ?array, fun t k j v h => ?csr⟩
  case reads =>
    exact ⟨s.norm_link k, s.norm_port k, s.norm_queue k, s.norm_slot k, s.norm_fent k, s.norm_chain k, s.norm_way k,
      s.norm_die k, s.norm_pslot k, s.norm_chan k, s.norm_dch k, s.norm_cnt k, s.norm_arb k, s.norm_reg k,
      tget_tnorm _ _ _, tget_tnorm _ _ _, tget_tnorm _ _ _⟩
  case array => exact ⟨twf_tset _ _ _ _ h, tget_tset _ _ _ _ _ h⟩
  case csr => exact ⟨twf_tset _ _ _ _ h, tget_tset _ _ _ _ _ h⟩

/-- Settles O3: the tables of the reset state list nothing, so every item reads as its table's default. -/
theorem resetLeaves : Obligations.ResetLeaves :=
  ⟨⟨rfl, rfl, rfl, fun _ => State.reg_of_unwritten rfl, rfl, rfl, rfl, rfl, rfl, fun _ => rfl, fun _ => rfl, rfl⟩, rfl⟩

end Sys2Proof.Machine
end

section
/-! SUPPORT. Raising an interrupt source (R322): a source that rises sets its bit, may send on its way, and ends by driving
ALERT_N. -/
namespace Sys2Proof.Machine

/-! ### ALERT_N -/

section
variable (s : State)

theorem State.alertLow_driveAlert : alertLow s.driveAlert = alertLow s := by
  unfold State.driveAlert
  dsimp only
  split <;> rfl

/-- Driving the pin leaves it at the level that the state asks for. -/
theorem State.driveAlert_alertN : s.driveAlert.power.alertN = !(alertLow s.driveAlert) := by
  rw [State.alertLow_driveAlert]
  unfold State.driveAlert
  dsimp only
  split
  · next h => exact beq_iff_eq.1 h
  · rfl

/-! ### A source that rises -/

theorem Rises.ovfLog (n : Nat) : Rises s (State.ovfLog n s) :=
  Rises.ovfLogBy s _ (fun u => Rises.raiseBy u _ (fun m v => Rises.ovfLogBy v id (fun w => .refl w) m) 1 0) n

theorem Rises.sendIntrBy (note : Nat → State → State) (h : ∀ n u, Rises u (note n u)) (src sub : Nat) :
    Rises s (s.sendIntrBy note src sub) := by
  unfold State.sendIntrBy
  dsimp only
  split
  · exact (Rises.sendRaw s _ _).trans (Rises.countFlits _ note h _ _)
  · exact .refl s

theorem State.bit_setBit_pend (h : s.repWf) {src : Nat} (hsrc : src < 32) : (s.setBit rIntrPend src).bit rIntrPend src = true := by
  have hread : ∀ v : Reg3, (s.setReg3 rIntrPend v).reg3 rIntrPend = v := fun v =>
    (tget_tset csrInit s.csr rIntrPend v rIntrPend h.1).trans (if_pos rfl)
  rw [State.bit_pend, State.setBit, hread, BitVec.getLsbD_or, getLsbD_fieldMask]
  simp [hsrc]

theorem State.raise_of_pending {src : Nat} (h : s.bit rIntrPend src = true) (sub : Nat) : s.raise src sub = s := if_pos h

/-- A source that rises sets its bit; what it sends then clears no pending bit, and ALERT_N is driven last. -/
theorem State.raise_of_clear {src : Nat} (h : s.bit rIntrPend src = false) (sub : Nat) :
    ∃ u, Rises (s.setBit rIntrPend src) u ∧ s.raise src sub = u.driveAlert := by
  have hmessage : ∀ v : State, Rises v (if v.bit rIntrMask src then v.sendIntrBy State.ovfLog src sub else v) := by
    intro v
    split
    · exact Rises.sendIntrBy v _ (fun n w => Rises.ovfLog w n) src sub
    · exact .refl v
  have hibi : ∀ v : State, Rises v (if v.bit rIntrMask (20 + src) && v.mgt.i3c.canIbi then v.emit v.intrIbi else v) := by
    intro v
    split
    · exact .of_csr (Reported.emit v _) rfl
    · exact .refl v
  exact ⟨_, (hmessage _).trans (hibi _), if_neg (ne_true_of_eq_false h)⟩

end

/-! ### The statement -/

/-- Settles O53: a source by its pending bit, and the frame of a report by what `Reported` keeps. -/
theorem interruptsAndReports : Obligations.InterruptsAndReports := by
  refine ⟨fun s src sub hwf hsrc => ⟨fun hset => s.raise_of_pending hset sub, fun hclear => ?rises⟩,
    fun s off block bit cls port addr detail => ?frame⟩
  case rises =>
    obtain ⟨u, hu, hraise⟩ := s.raise_of_clear hclear sub
    have hrep := s.repWf_of hwf
    have hbit := hu.2 ((Reported.setBit s rIntrPend src).wf hrep) src (s.bit_setBit_pend hrep (by omega))
    have hu' : u.repWf := hu.1.wf ((Reported.setBit s rIntrPend src).wf hrep)
    rw [hraise]
    exact ⟨(Rises.driveAlert u).2 hu' src hbit, u.driveAlert_alertN⟩
  case frame =>
    have h := Reported.err s off block bit cls port addr detail
    exact ⟨h.home, h.queues, h.ports, h.wp, h.frames, h.mem, h.cry, h.prk, h.dma, h.pending, h.tick, h.fc, h.boot, h.safe⟩

end Sys2Proof.Machine
end

section
/-! SUPPORT. Signpost commands that read (R298, R299, R301, R310, R328): what each operation answers when its parameters are in
range. None of them changes the state that it starts from. -/
namespace Sys2Proof.Machine

/-- A row of Signpost whose command is accepted is answered as its operation says. -/
theorem State.done_signpost_of_accepts {s u : State} {p : Path} {c : Cmd} {key : Option Key} (h : s.accepts p c key u) {op : Nat}
    (hop : c.opcode = op) {run : State → Cmd → Option Key → Done} {st : Nat} {res : List Nat} {t : State}
    (hrun : run u c key = .now st res t) :
    (s.signpost p (· == op) run).done = .next (t.replyWith p c key st res).norm :=
  congrArg State.done (State.signpost_of_accepts h (want := (· == op)) (beq_iff_eq.2 hop) hrun)

theorem State.path_of_accepts {s u : State} {p : Path} {c : Cmd} {key : Option Key} (h : s.accepts p c key u) : c.path = p := by
  obtain ⟨-, hnext, -⟩ := h
  exact State.path_of_nextCmd hnext

section
variable {u : State} {c : Cmd} (key : Option Key)

theorem doTelem_of_inRange (hcount : 1 ≤ c.params.getD 1 0) (hlast : c.params.getD 0 0 + c.params.getD 1 0 ≤ 22) :
    doTelem u c key = .now sOk
      ((List.range (c.params.getD 1 0)).map (fun k => natBytes 4 (u.telemItem (c.params.getD 0 0 + k)).toNat)).flatten u :=
  if_neg (by omega)

theorem doLogRead_of_inRange (hfirst : leNat c.params 0 2 ≤ 1023) (hsome : 1 ≤ c.params.getD 2 0)
    (hmost : c.params.getD 2 0 ≤ 7) (hzero : c.params.getD 3 0 = 0) :
    doLogRead u c key = .now sOk ((List.range (c.params.getD 2 0)).map (fun k => match u.saf.log[leNat c.params 0 2 + k]? with
      | some e => e.bytes
      | none => List.replicate 32 0)).flatten u :=
  if_neg (by omega)

theorem doFactory_of_inRange (hindex : factoryIndexOk (c.params.getD 0 0) (c.params.getD 1 0) = true)
    (hzero : zeroAt c.params 2 2 = true) :
    doFactory u c key = .now sOk (intBytes (factoryValue (c.params.getD 0 0) (c.params.getD 1 0))) u :=
  if_neg (by simp [-List.getD_eq_getElem?_getD, hindex, hzero])

theorem doTrimRead_of_inRange (hindex : trimIndexOk (c.params.getD 0 0) (c.params.getD 1 0) = true)
    (hzero : zeroAt c.params 2 2 = true) :
    doTrimRead u c key =
      .now sOk (intBytes (u.mgt.trimValue (trimKey (c.params.getD 0 0) (c.params.getD 1 0)))) u :=
  if_neg (by simp [-List.getD_eq_getElem?_getD, hindex, hzero])

theorem doWear_of_inRange (hdie : c.params.getD 0 0 ≤ 7) (hzero : c.params.getD 1 0 = 0) (hseg : leNat c.params 2 2 ≤ 527) :
    doWear u c key = .now sOk (natBytes 4 (tget lifeDef (u.die (c.params.getD 0 0)).life (leNat c.params 2 2)).units ++
      [(u.die (c.params.getD 0 0)).freeSpares, (u.die (c.params.getD 0 0)).segUse (leNat c.params 2 2), 0, 0]) u :=
  if_neg (by omega)

theorem doParkMap_of_inRange (hsome : 1 ≤ c.params.getD 2 0) (hmost : c.params.getD 2 0 ≤ 30)
    (hlast : leNat c.params 0 2 + c.params.getD 2 0 ≤ 1024) (hzero : c.params.getD 3 0 = 0) :
    doParkMap u c key =
      .now sOk ((List.range (c.params.getD 2 0)).map (fun k => u.mapBytes (leNat c.params 0 2 + k))).flatten u :=
  if_neg (by omega)

theorem doSession_of_open {x : Session} (h : (u.pathSt c.path).session = some x) :
    doSession u c key = .now sOk ([x.level, Path.byte c.path] ++ natBytes 2 (60000 - x.idle)) u := by
  simp only [doSession, h, idleTicks]

end

/-! ### The statement -/

/-- Settles O54: one row for each command, answered by its operation from the state that authentication left. -/
theorem signpostReads : Obligations.SignpostReads := by
  intro s p c key u hacc
  obtain rfl : c.path = p := State.path_of_accepts hacc
  exact ⟨fun hop => State.done_signpost_of_accepts hacc hop rfl, fun hop => State.done_signpost_of_accepts hacc hop rfl,
    fun hop => State.done_signpost_of_accepts hacc hop rfl, fun hop => State.done_signpost_of_accepts hacc hop rfl,
    fun hop hcount hlast => State.done_signpost_of_accepts hacc hop (doTelem_of_inRange key hcount hlast),
    fun hop hfirst hsome hmost hzero =>
      State.done_signpost_of_accepts hacc hop (doLogRead_of_inRange key hfirst hsome hmost hzero),
    fun hop hindex hzero => State.done_signpost_of_accepts hacc hop (doFactory_of_inRange key hindex hzero),
    fun hop hindex hzero => State.done_signpost_of_accepts hacc hop (doTrimRead_of_inRange key hindex hzero),
    fun hop => State.done_signpost_of_accepts hacc hop rfl,
    fun hop hdie hzero hseg => State.done_signpost_of_accepts hacc hop (doWear_of_inRange key hdie hzero hseg),
    fun hop hsome hmost hlast hzero =>
      State.done_signpost_of_accepts hacc hop (doParkMap_of_inRange key hsome hmost hlast hzero),
    fun hop => State.done_signpost_of_accepts hacc hop rfl,
    fun hop _ hopen => State.done_signpost_of_accepts hacc hop (doSession_of_open key hopen)⟩

end Sys2Proof.Machine
end

section
/-! SUPPORT. The Tollgate (R311, R312, R314): each operation by what the path holds and the level's key. -/
namespace Sys2Proof.Machine

section
variable {u : State} {c : Cmd} (key : Option Key)

/-! ### TOLLGATE_OPEN -/

/-- The parameters name a level that has a key of its own, and their reserved bytes are 0. -/
def Cmd.levelOk (c : Cmd) : Prop := (c.params.getD 0 0 = 1 ∨ c.params.getD 0 0 = 2) ∧ zeroAt c.params 1 3 = true

theorem Cmd.not_badParam_of_levelOk (h : c.levelOk) :
    ¬((c.params.getD 0 0 ≠ 1 ∧ c.params.getD 0 0 ≠ 2) ∨ !(zeroAt c.params 1 3)) := by
  obtain ⟨hlevel, hzero⟩ := h
  rintro (⟨hone, htwo⟩ | hreserved)
  · exact hlevel.elim hone htwo
  · simp [hzero] at hreserved

theorem doOpen_of_lockedOut (hlevel : c.levelOk) (hlock : (u.pathSt c.path).lockout.any (· < 1000) = true) :
    doOpen u c key = .now sBusy [] u :=
  (if_neg (Cmd.not_badParam_of_levelOk hlevel)).trans (if_pos hlock)

theorem doOpen_of_key (hlevel : c.levelOk) (hlock : (u.pathSt c.path).lockout.any (· < 1000) = false) {k : Key}
    (hkey : u.levelKey (c.params.getD 0 0) = some k) :
    doOpen u c key = .now sOk (keyBytes (Config.freeChallenge u.free))
      (State.setPath { u with free := u.free + 1 } c.path { u.pathSt c.path with
        challenge := some ⟨c.params.getD 0 0, BitVec.ofNat 128 (leNat c.params 4 16), Config.freeChallenge u.free⟩ }) := by
  have hopen : ¬((u.pathSt c.path).lockout.any (· < lockTicks) = true) := ne_true_of_eq_false hlock
  rw [doOpen, if_neg (Cmd.not_badParam_of_levelOk hlevel), if_neg hopen, hkey]

/-! ### TOLLGATE_AUTH -/

section
variable {ch : Challenge} {k : Key} (hch : (u.pathSt c.path).challenge = some ch) (hkey : u.levelKey ch.level = some k)
include hch hkey

theorem doAuth_of_right_response (h : ch.answer k c.path = c.params) :
    doAuth u c key = .now sOk [] (u.setPath c.path { u.pathSt c.path with
      challenge := none, openFails := 0, session := some ⟨ch.level, ch.sessionKey k, none, 0, 0⟩ }) := by
  simp only [doAuth, hch, hkey, if_pos (beq_iff_eq.2 h)]

theorem doAuth_of_wrong_response (h : ch.answer k c.path ≠ c.params) :
    doAuth u c key = .now sAuthFail [] (u.openFailed c.path) := by
  simp only [doAuth, hch, hkey, if_neg (mt beq_iff_eq.1 h)]

end

/-! ### TOLLGATE_PROVISION -/

theorem doProvision_of_host (hlevel : c.levelOk) (hpath : c.path = .host) : doProvision u c key = .now sRefused [] u :=
  (if_neg (Cmd.not_badParam_of_levelOk hlevel)).trans (if_pos (.inl hpath))

theorem doProvision_of_blank_owner (hlevel : c.params.getD 0 0 = 2) (hzero : zeroAt c.params 1 3 = true) (hpath : c.path = .i3c)
    (hblank : u.mgt.ownKey = none) :
    doProvision u c key = .now sOk [] (u.setMgt { u.mgt with ownKey := some (keyOfBytes (c.params.drop 4)) }) := by
  have hfree : ¬(c.path = .host ∨ (u.levelKey (c.params.getD 0 0)).isSome) := by
    rw [hpath, hlevel]
    simp [State.levelKey, hblank]
  rw [doProvision, if_neg (Cmd.not_badParam_of_levelOk ⟨.inr hlevel, hzero⟩), if_neg hfree, if_neg (by omega)]

end

/-! ### Its timers -/

section
variable (s : State) (p : Path)

theorem exec_sessionIdleClose_of_idle {x : Session} (h : (s.pathSt p).session = some x) (hlong : 60000 ≤ x.idle) :
    exec (.sessionIdleClose p) s = .next (s.setPath p { s.pathSt p with session := none }).norm := by
  simp only [exec, execSessionIdleClose, h]
  exact congrArg State.done (if_pos hlong)

theorem exec_sessionIdleClose_of_not_idle {x : Session} (h : (s.pathSt p).session = some x) (hshort : x.idle < 60000) :
    exec (.sessionIdleClose p) s = .next s.norm := by
  simp only [exec, execSessionIdleClose, h]
  exact congrArg State.done (if_neg (Nat.not_le.2 hshort))

theorem exec_tollgateLockoutEnd_of_over {n : Nat} (h : (s.pathSt p).lockout = some n) (hlong : 1000 ≤ n) :
    exec (.tollgateLockoutEnd p) s = .next (s.setPath p { s.pathSt p with lockout := none }).norm := by
  simp only [exec, execTollgateLockoutEnd, h, Option.any_some]
  exact congrArg State.done (if_pos (decide_eq_true hlong))

theorem exec_tollgateLockoutEnd_of_running {n : Nat} (h : (s.pathSt p).lockout = some n) (hshort : n < 1000) :
    exec (.tollgateLockoutEnd p) s = .next s.norm := by
  simp only [exec, execTollgateLockoutEnd, h, Option.any_some]
  exact congrArg State.done (if_neg (mt of_decide_eq_true (Nat.not_le.2 hshort)))

end

/-! ### The statement -/

/-- Settles O55: the commands by what their path holds, the timers by whether their ticks have passed. -/
theorem tollgate : Obligations.Tollgate := by
  refine ⟨fun s p c key u hacc => ?commands, fun s p => ?timers⟩
  case commands =>
    obtain rfl : c.path = p := State.path_of_accepts hacc
    exact ⟨fun hop k hlevel hzero hlock hkey => State.done_signpost_of_accepts hacc hop (doOpen_of_key key ⟨hlevel, hzero⟩ hlock hkey),
      fun hop hlevel hzero hlock => State.done_signpost_of_accepts hacc hop (doOpen_of_lockedOut key ⟨hlevel, hzero⟩ hlock),
      fun hop ch k hch hkey hright => State.done_signpost_of_accepts hacc hop (doAuth_of_right_response key hch hkey hright),
      fun hop ch k hch hkey hwrong => State.done_signpost_of_accepts hacc hop (doAuth_of_wrong_response key hch hkey hwrong),
      fun hop => State.done_signpost_of_accepts hacc hop rfl,
      fun hop hpath hlevel hzero hblank =>
        State.done_signpost_of_accepts hacc hop (doProvision_of_blank_owner key hlevel hzero hpath hblank),
      fun hop hpath hlevel hzero => State.done_signpost_of_accepts hacc hop (doProvision_of_host key ⟨hlevel, hzero⟩ hpath)⟩
  case timers =>
    exact ⟨fun _ hopen hlong => exec_sessionIdleClose_of_idle s p hopen hlong,
      fun _ hopen hshort => exec_sessionIdleClose_of_not_idle s p hopen hshort,
      fun _ hlock hlong => exec_tollgateLockoutEnd_of_over s p hlock hlong,
      fun _ hlock hshort => exec_tollgateLockoutEnd_of_running s p hlock hshort⟩

end Sys2Proof.Machine
end

section
/-! SUPPORT. Signpost commands that write (R259, R301, R303, R305, R308, R320, R360): what each operation leaves when its
parameters are in range. -/
namespace Sys2Proof.Machine

section
variable {u : State} {c : Cmd} (key : Option Key)

/-! ### Firmware (R303, R305; log entry 34) -/

/-- The update goes to the slot that does not run, which is erased. -/
def Mgt.beginUpdate (m : Mgt) (size : Nat) : Mgt :=
  if m.running = 0 then { m with update := some ⟨1, size, []⟩, slotB := none }
  else { m with update := some ⟨0, size, []⟩, slotA := none }

theorem doFwBegin_of_inRange (hsome : 1 ≤ leNat c.params 0 4) (hmost : leNat c.params 0 4 ≤ 2097152) :
    doFwBegin u c key = .now sOk [] (u.setMgt (u.mgt.beginUpdate (leNat c.params 0 4))) := by
  rw [doFwBegin, if_neg (by omega), Mgt.beginUpdate]
  by_cases hrun : u.mgt.running = 0
  · simp [hrun]
  · have hslot : 1 - u.mgt.running = 0 := by omega
    simp [hrun, hslot]

section
variable {x : Update} (hupdate : u.mgt.update = some x)
include hupdate

theorem doFwData_of_inRange (h : leNat c.params 0 4 + (c.params.drop 4).length ≤ x.size) :
    doFwData u c key = .now sOk [] (u.setMgt { u.mgt with update := some { x with
      bytes := (List.range (c.params.drop 4).length).foldl
        (fun t i => tput (leNat c.params 0 4 + i) (BitVec.ofNat 8 ((c.params.drop 4).getD i 0)) t) x.bytes } }) := by
  simp only [doFwData, hupdate]
  exact if_neg (Nat.not_lt.2 h)

/-- The image stands in its slot and the update is over, whether the image passes or not. -/
def Mgt.endUpdate (m : Mgt) (x : Update) : Mgt :=
  if x.slot = 0 then { m with update := none, slotA := some x.image } else { m with update := none, slotB := some x.image }

theorem doFwCommit_of_good (h : fwOk (some x.image) = true) :
    doFwCommit u c key = .now sOk ([x.slot, 0, 0, 0] ++ natBytes 4 (Config.imageVersion x.image).toNat)
      (u.setMgt { u.mgt.endUpdate x with prefer := x.slot, trial := true, trialBoot := false }) := by
  simp only [doFwCommit, hupdate]
  exact if_pos h

theorem doFwCommit_of_bad (h : fwOk (some x.image) = false) :
    doFwCommit u c key = .now sRefused [] (u.setMgt (u.mgt.endUpdate x)) := by
  simp only [doFwCommit, hupdate]
  exact if_neg (ne_true_of_eq_false h)

end

theorem doFwSelect_of_inRange (hslot : c.params.getD 0 0 ≤ 1) (hzero : zeroAt c.params 1 3 = true) :
    doFwSelect u c key =
      .now sOk [] (u.setMgt { u.mgt with prefer := c.params.getD 0 0, trial := false, trialBoot := false }) :=
  if_neg (by simp [-List.getD_eq_getElem?_getD, hslot, hzero])

/-! ### Keys (R259) -/

/-- The three keys that the unwrapped bytes of KEY_LOAD hold. -/
def keysOfBytes (b : List Nat) : Keys :=
  ⟨keyOfBytes (b.take 32), keyOfBytes ((b.drop 32).take 32), keyOfBytes (b.drop 64)⟩

theorem doKeyLoad_of_unwrapped (hslot : c.keySlotOk) (hoff : u.ksEnabled c.keySlot = false) {x : List Nat}
    (hbytes : keyUnwrap (Config.wrapKey Config.otpRootKey) (c.params.drop 4) = some x) :
    doKeyLoad u c key =
      .now sOk [] (u.setCry { u.cry with keys := tset noneDef u.cry.keys c.keySlot (some (keysOfBytes x)) }) := by
  refine (if_neg (Cmd.not_badParam_of_keySlotOk hslot)).trans ((if_neg (ne_true_of_eq_false hoff)).trans ?_)
  rw [hbytes]
  rfl

/-! ### Trims, the cap and the events (R301, R320, R360) -/

theorem doTrimWrite_of_inRange (hindex : trimIndexOk (c.params.getD 0 0) (c.params.getD 1 0) = true)
    (hzero : zeroAt c.params 2 2 = true) (hlow : -(trimMax (c.params.getD 0 0)) ≤ (BitVec.ofNat 32 (leNat c.params 4 4)).toInt)
    (hhigh : (BitVec.ofNat 32 (leNat c.params 4 4)).toInt ≤ trimMax (c.params.getD 0 0)) :
    doTrimWrite u c key = .now sOk [] (u.setMgt { u.mgt with
      trimNext := u.mgt.trimNext ++
        [(trimKey (c.params.getD 0 0) (c.params.getD 1 0), (BitVec.ofNat 32 (leNat c.params 4 4)).toInt)]
      trimCrcOk := true }) := by
  have hbelow := decide_eq_false (Int.not_lt.2 hlow)
  have habove := decide_eq_false (Int.not_lt.2 hhigh)
  exact if_neg (by simp only [hindex, hzero, hbelow, habove, Bool.not_true, Bool.or_self, Bool.false_eq_true, not_false_eq_true])

theorem doGovSet_of_inRange (hlow : 3000 ≤ leNat c.params 0 2) (hhigh : leNat c.params 0 2 ≤ 11000)
    (hzero : zeroAt c.params 2 2 = true) :
    doGovSet u c key = .now sOk [] { u with power := { u.power with capNext := leNat c.params 0 2 } } :=
  if_neg (by simp [hlow, hhigh, hzero])

theorem doEventDrain_of_inRange (hsome : 1 ≤ c.params.getD 0 0) (hmost : c.params.getD 0 0 ≤ 30)
    (hzero : zeroAt c.params 1 3 = true) :
    doEventDrain u c key =
      .now sOk (drainEvents (c.params.getD 0 0) u).1 (drainEvents (c.params.getD 0 0) u).2 := by
  have hparams : ¬(c.params.getD 0 0 = 0 ∨ 30 < c.params.getD 0 0 ∨ !(zeroAt c.params 1 3)) := by
    rw [hzero]
    simp only [Bool.not_true, Bool.false_eq_true, or_false]
    omega
  exact if_neg hparams

end

/-! ### The statement -/

/-- Settles O58: one row for each command, answered by its operation from the state that authentication left. -/
theorem signpostWrites : Obligations.SignpostWrites := by
  refine ⟨fun s p c key u hacc => ?firmware, fun s p c key u hacc => ?others⟩
  case firmware =>
    exact ⟨fun hop hsome hmost => State.done_signpost_of_accepts hacc hop (doFwBegin_of_inRange key hsome hmost),
      fun hop x hupdate hroom => State.done_signpost_of_accepts hacc hop (doFwData_of_inRange key hupdate hroom),
      fun hop x hupdate => ⟨fun hgood => State.done_signpost_of_accepts hacc hop (doFwCommit_of_good key hupdate hgood),
        fun hbad => State.done_signpost_of_accepts hacc hop (doFwCommit_of_bad key hupdate hbad)⟩,
      fun hop hslot hzero => State.done_signpost_of_accepts hacc hop (doFwSelect_of_inRange key hslot hzero)⟩
  case others =>
    exact ⟨fun hop hlow hhigh hzero hoff x hbytes =>
        State.done_signpost_of_accepts hacc hop (doKeyLoad_of_unwrapped key ⟨hlow, hhigh, hzero⟩ hoff hbytes),
      fun hop hlow hhigh hzero hon =>
        State.done_signpost_of_accepts hacc hop (doKeyLoad_of_enabled key ⟨hlow, hhigh, hzero⟩ hon),
      fun hop hlow hhigh hzero hoff =>
        State.done_signpost_of_accepts hacc hop (doKeyUnload_of_disabled key ⟨hlow, hhigh, hzero⟩ hoff),
      fun hop => State.done_signpost_of_accepts hacc hop rfl,
      fun hop hindex hzero hlow hhigh =>
        State.done_signpost_of_accepts hacc hop (doTrimWrite_of_inRange key hindex hzero hlow hhigh),
      fun hop hlow hhigh hzero => State.done_signpost_of_accepts hacc hop (doGovSet_of_inRange key hlow hhigh hzero),
      fun hop => State.done_signpost_of_accepts hacc hop rfl,
      fun hop hsome hmost hzero => State.done_signpost_of_accepts hacc hop (doEventDrain_of_inRange key hsome hmost hzero)⟩

end Sys2Proof.Machine
end

section
/-! SUPPORT. Stops by command (R324, R355; log entry 35): what a stop that begins leaves owed, and what ends it. -/
namespace Sys2Proof.Machine

/-- A row of Signpost whose command is accepted, and whose answer comes later. -/
theorem State.signpost_of_accepts_later {s u : State} {p : Path} {c : Cmd} {key : Option Key} (h : s.accepts p c key u)
    {want : Nat → Bool} (hwant : want c.opcode = true) {run : State → Cmd → Option Key → Done} {t : State}
    (hrun : run u c key = .later t) : s.signpost p want run = (t.sessionNote p key false).lastSeqClose c key := by
  obtain ⟨hidle, hnext, hserves, hpre, n, hauth, hlevel⟩ := h
  obtain rfl : c.path = p := State.path_of_nextCmd hnext
  simp only [State.signpost, State.wake_of_not_idle hidle, hnext, hwant, hserves, Bool.and_self, if_true, State.serve, hpre, hauth,
    if_neg (Nat.not_lt.2 hlevel), hrun]

/-- The reply of a stop is owed on its path. -/
def State.oweStop (v : State) (p : Path) (w : Late) : State :=
  { v with power := { v.power with replyPath := some p }, mgt := { v.mgt with late := some w } }

theorem State.stopReady_oweStop (v : State) (p : Path) (w : Late) : (v.oweStop p w).stopReady = v.stopReady := rfl

theorem State.finishStop_of_not_ready {u : State} (h : u.stopReady = false) : u.finishStop = u := by
  unfold State.finishStop
  split
  · simp [h]
  · rfl

section
variable {u : State} {b : Boot}

theorem beginStop_eq_of_run {c : Cmd} (key : Option Key) (hrun : u.power.boot = .run) :
    beginStop b u c key = .later ((u.stopAdmission b).oweStop c.path ⟨c.opcode, c.seq, key⟩).finishStop := by
  rw [beginStop, if_neg (by simp [hrun])]
  generalize u.stopAdmission b = v
  rfl

theorem beginStop_of_wait {c : Cmd} (key : Option Key) (hrun : u.power.boot = .run)
    (hwait : (u.stopAdmission b).stopReady = false) :
    beginStop b u c key = .later ((u.stopAdmission b).oweStop c.path ⟨c.opcode, c.seq, key⟩) := by
  rw [beginStop_eq_of_run key hrun, State.finishStop_of_not_ready]
  rw [State.stopReady_oweStop, hwait]

/-- A command that comes in Normal work begins its stop. -/
theorem State.stopCmd_of_run (p : Path) {s : State} {c : Cmd} {key : Option Key} (hacc : s.accepts p c key u) {op : Nat}
    (hop : c.opcode = op) (hb : b ≠ .run) (hrun : u.power.boot = .run) (hboot : s.power.boot = .run)
    (hwait : (u.stopAdmission b).stopReady = false) :
    s.stopCmd p b op = (((u.stopAdmission b).oweStop p ⟨c.opcode, c.seq, key⟩).sessionNote p key false).lastSeqClose c key := by
  obtain rfl : c.path = p := State.path_of_accepts hacc
  have hnew : ¬((s.power.boot == b && s.power.replyPath == some c.path) = true) := by
    simp [hboot, hb.symm]
  rw [State.stopCmd, if_neg hnew]
  exact State.signpost_of_accepts_later hacc (want := (· == op)) (beq_iff_eq.2 hop) (beginStop_of_wait key hrun hwait)

end

section
variable {s : State} {p : Path} {w : Late} (hpath : s.power.replyPath = some p) (hlate : s.mgt.late = some w)
include hpath

/-- A stop that its path still waits for goes on. -/
theorem State.stopCmd_of_begun {b : Boot} (hboot : s.power.boot = b) (op : Nat) : s.stopCmd p b op = s.finishStop :=
  if_pos (by simp [hboot, hpath])

include hlate

/-- The last writes of a stop come before its reply. -/
theorem State.finishStop_of_ready (hready : s.stopReady = true) (hwork : s.atWork = true) (hroom : s.lateRoom p = true) :
    s.finishStop = State.cmdReply (let v := if s.power.boot == .standbyEntry then s.standbyEnd else s.shutdownEnd
      { v with power := { v.power with replyPath := none, replyOut := some p }, mgt := { v.mgt with late := none } }) p
        (replyBytes w.opcode w.seq sOk [] w.key) := by
  simp only [State.finishStop, hpath, hlate]
  exact if_neg (by simp [hready, hwork, hroom])

end

/-! ### The statement -/

/-- Settles O59: a stop that begins leaves its reply owed; one that is ready makes its last writes and replies. -/
theorem stopCommands : Obligations.StopCommands := by
  refine ⟨fun s p c key u hacc => ⟨fun hop => ?soft, fun hop hrun hboot hwait => ?shutdown, fun hop hrun hboot hwait => ?standby⟩,
    fun s p w hpath hlate hready hwork hroom => ⟨fun hboot => ?shutdownEnd, fun hboot => ?standbyEnd⟩⟩
  case soft => exact State.done_signpost_of_accepts hacc hop rfl
  case shutdown => exact congrArg State.done (State.stopCmd_of_run p hacc hop (by decide) hrun hboot hwait)
  case standby => exact congrArg State.done (State.stopCmd_of_run p hacc hop (by decide) hrun hboot hwait)
  case shutdownEnd =>
    have hfinish := State.finishStop_of_ready hpath hlate hready hwork hroom
    rw [if_neg (by simp [hboot])] at hfinish
    exact congrArg State.done ((State.stopCmd_of_begun hpath hboot 0x71).trans hfinish)
  case standbyEnd =>
    have hfinish := State.finishStop_of_ready hpath hlate hready hwork hroom
    rw [if_pos (by simp [hboot])] at hfinish
    exact congrArg State.done ((State.stopCmd_of_begun hpath hboot 0x72).trans hfinish)

end Sys2Proof.Machine
end

section
/-! SUPPORT. The host mailbox (R315, R316, R320, R376): a word that joins the command FIFO, the flush, and the reads of the
reply FIFO and of the event FIFO. -/
namespace Sys2Proof.Machine

section
variable {s : State} (v : Word)

/-! ### The command FIFO (R315) -/

theorem State.cmdPush_of_overflow (h : s.mgt.overflow = true) : s.cmdPush v = s := if_pos h

section
variable (hroomLeft : s.mgt.overflow = false)
include hroomLeft

theorem State.cmdPush_of_full (hfull : 128 ≤ s.mgt.cmdFifo.length) :
    s.cmdPush v = { s with mgt := { s.mgt with overflow := true } } :=
  (if_neg (ne_true_of_eq_false hroomLeft)).trans (if_pos hfull)

variable (hroom : s.mgt.cmdFifo.length < 128)
include hroom

theorem State.cmdPush_of_last_word (h : packetWhole (s.mgt.cmdSeen ++ [v]) = true) :
    s.cmdPush v = { s with mgt := { s.mgt with
      cmdFifo := s.mgt.cmdFifo ++ [v], cmdSeen := [], owedHost := s.mgt.owedHost + 1 } } :=
  (if_neg (ne_true_of_eq_false hroomLeft)).trans ((if_neg (Nat.not_le.2 hroom)).trans (if_pos h))

theorem State.cmdPush_of_inner_word (h : packetWhole (s.mgt.cmdSeen ++ [v]) = false) :
    s.cmdPush v = { s with mgt := { s.mgt with
      cmdFifo := s.mgt.cmdFifo ++ [v], cmdSeen := s.mgt.cmdSeen ++ [v] } } :=
  (if_neg (ne_true_of_eq_false hroomLeft)).trans ((if_neg (Nat.not_le.2 hroom)).trans (if_neg (ne_true_of_eq_false h)))

end

/-- A flush with no stop under way and no read stalled (log entry 19). -/
theorem State.cmdFlush_of_set (h : v.getLsbD 0 = true) (hreaders : s.mgt.readers = []) (hpath : s.power.replyPath = none) :
    s.cmdFlush v = { s with
      mgt := { s.mgt with cmdFifo := [], cmdSeen := [], overflow := false, owedHost := 0, readers := [] } } := by
  simp [State.cmdFlush, h, hpath, State.endStalls, State.setMgt, hreaders, forEach]

theorem State.cmdFlush_of_clear (h : v.getLsbD 0 = false) : s.cmdFlush v = s := if_neg (ne_true_of_eq_false h)

/-! ### Reads with a side effect (R376) -/

/-- A read command without a port gets its word on the way out. -/
theorem State.deliver_noQueue (id off : Nat) (w : Word) : s.deliver (noQueue, id, off) w = s.emit (.csrRead off w) :=
  if_neg (Nat.lt_irrefl noQueue)

theorem State.readOut_of_not_host (h : s.power.replyOut ≠ some .host) : s.readOut = s := if_neg (by simp [h])

theorem State.replyRead_of_word {w : Word} {r : List Word} (hfifo : s.mgt.replyFifo = w :: r) (hreaders : s.mgt.readers = [])
    (hout : s.power.replyOut ≠ some .host) : s.replyRead (noQueue, 0, rReplyFifo) = { s with
      mgt := { s.mgt with replyFifo := r }, out := s.out ++ [.csrRead rReplyFifo w] } := by
  have hnone : s.mgt.readers.isEmpty = true := List.isEmpty_iff.2 hreaders
  simp only [State.replyRead, hfifo, hnone, if_true, State.deliver_noQueue]
  rw [State.readOut_of_not_host]
  · rfl
  · exact hout

theorem State.replyRead_of_nothing_owed (hfifo : s.mgt.replyFifo = []) (howed : s.mgt.owedHost = 0) :
    s.replyRead (noQueue, 0, rReplyFifo) = (s.setBit rReplyStatus 9).emit (.csrRead rReplyFifo 0) := by
  simp only [State.replyRead, hfifo, howed, if_true, State.deliver_noQueue]

theorem State.replyRead_of_owed (hfifo : s.mgt.replyFifo = []) (howed : s.mgt.owedHost ≠ 0) (r : Nat × Nat × Nat) :
    s.replyRead r = { s with mgt := { s.mgt with readers := s.mgt.readers ++ [r] } } := by
  simp only [State.replyRead, hfifo, if_neg howed]

theorem State.ctlRead_evtLo (r : Nat × Nat × Nat) : s.ctlRead rEvtLo r = s.evtPop.2.deliver r s.evtPop.1 :=
  (if_neg (by decide)).trans (if_pos rfl)

/-! ### The commands in an awake device -/

variable (hrun : s.power.boot = .run) (hsafe : s.saf.safe ≠ .stop) (hidle : s.power.idle = false)
include hrun hsafe hidle

theorem exec_cmdFifoWrite : exec (.cmdFifoWrite v) s = .next (s.cmdPush v).norm := s.done_ctl_of_awake hrun hsafe hidle _

theorem exec_flush : exec (.flush v) s = .next (s.cmdFlush v).norm := s.done_ctl_of_awake hrun hsafe hidle _

theorem exec_replyFifoRead : exec .replyFifoRead s = .next (s.replyRead (noQueue, 0, rReplyFifo)).norm := by
  have hon : s.replyOn = true := by simp [State.replyOn, State.ctlOn, hrun, hsafe]
  have hserved : (if s.replyOn then s.wake.replyRead (noQueue, 0, rReplyFifo) else s) = s.replyRead (noQueue, 0, rReplyFifo) := by
    rw [if_pos hon, State.wake_of_not_idle hidle]
  exact congrArg State.done hserved

theorem exec_evtLoRead : exec .evtLoRead s = .next (s.evtPop.2.emit (.csrRead rEvtLo s.evtPop.1)).norm :=
  calc exec .evtLoRead s
      = .next (s.ctlRead rEvtLo (noQueue, 0, rEvtLo)).norm := s.done_ctl_of_awake hrun hsafe hidle _
    _ = .next (s.evtPop.2.emit (.csrRead rEvtLo s.evtPop.1)).norm := by rw [State.ctlRead_evtLo, State.deliver_noQueue]

end

/-! ### The statement -/

/-- Settles O51: a write of the command FIFO by its room and its packet, a read by what its FIFO holds and what is owed. -/
theorem mailboxFifos : Obligations.MailboxFifos := by
  refine ⟨fun s v hrun hsafe hidle => ?command, fun s hrun hsafe hidle => ?read⟩
  case command =>
    rw [exec_cmdFifoWrite v hrun hsafe hidle, exec_flush v hrun hsafe hidle]
    refine ⟨fun hover => ?_, fun hleft hfull => ?_, fun hleft hroom hwhole => ?_, fun hleft hroom hpart => ?_,
      fun hset hreaders hpath => ?_, fun hclear => ?_⟩
    · rw [State.cmdPush_of_overflow v hover]
    · rw [State.cmdPush_of_full v hleft hfull]
    · rw [State.cmdPush_of_last_word v hleft hroom hwhole]
    · rw [State.cmdPush_of_inner_word v hleft hroom hpart]
    · rw [State.cmdFlush_of_set v hset hreaders hpath]
    · rw [State.cmdFlush_of_clear v hclear]
  case read =>
    rw [exec_replyFifoRead hrun hsafe hidle, exec_evtLoRead hrun hsafe hidle]
    refine ⟨fun w r hfifo hreaders hout => ?_, fun hfifo howed => ?_, fun hfifo howed => ?_, fun lo hi r hevt => ?_, fun hevt => ?_⟩
    · rw [State.replyRead_of_word hfifo hreaders hout]
    · rw [State.replyRead_of_nothing_owed hfifo howed]
    · rw [State.replyRead_of_owed hfifo howed]
    · simp only [State.evtPop, hevt]
      rfl
    · simp only [State.evtPop, hevt]
      rfl

end Sys2Proof.Machine
end

section
/-! SUPPORT. The I3C target (R318, R319): a transfer that the target handles, and the write and the read of a packet by what the path
owes and holds. -/
namespace Sys2Proof.Machine

section
variable {s : State} (hup : s.power.boot.i3cUp = true)

/-! ### Traffic on the bus -/

section
variable (hsdr : s.mgt.i3c.hdr = false)
include hup hsdr

/-- Outside HDR traffic the target handles a transfer as it comes. -/
theorem State.onI3c_of_sdr (f : State → State) : s.onI3c f = f s := if_pos (by simp [State.i3cOn, hup, hsdr])

theorem State.done_onI3c_of_sdr {f : State → State} {t : State} (h : f s = t) : (s.onI3c f).done = .next t.norm := by
  rw [State.onI3c_of_sdr hup hsdr, h, State.done_next]

end

/-- Between entry and exit of HDR traffic the target handles nothing. -/
theorem State.onI3c_of_hdr (h : s.mgt.i3c.hdr = true) (f : State → State) : s.onI3c f = s := if_neg (by simp [State.i3cOn, h])

include hup in
theorem exec_i3cHdrExit_of_up : exec .i3cHdrExit s = .next (s.setI3c { s.mgt.i3c with hdr := false }).norm :=
  congrArg State.done (if_pos hup)

/-! ### Private transfers (R319) -/

theorem State.standbyWake_of_not_standby (h : s.power.boot ≠ .standby) (w : Wake) : s.standbyWake w = s :=
  if_neg (by simp [h])

section
variable (hidle : s.power.idle = false) (hstandby : s.power.boot ≠ .standby)
include hidle hstandby

theorem State.i3cWrite_of_owed (howed : s.i3cOwed = true) (b : List (BitVec 8)) : s.i3cWrite b = s.emit .i3cNack := by
  simp only [State.i3cWrite, State.wake_of_not_idle hidle, State.standbyWake_of_not_standby hstandby, howed, Bool.true_or, if_true]

/-- A write that nothing forbids is a command. -/
theorem State.i3cWrite_of_free (howed : s.i3cOwed = false) (hreply : s.mgt.i3cp.reply = none) (hover : s.shutOver = false)
    {b : List (BitVec 8)} (hb : b ≠ []) (hlen : b.length ≤ 256) : s.i3cWrite b = { s with
      mgt := { s.mgt with i3cp := { s.mgt.i3cp with
        packets := s.mgt.i3cp.packets ++ [(packetOf b).1], badLen := s.mgt.i3cp.badLen ++ [(packetOf b).2] } }
      out := s.out ++ [.i3cAck] } := by
  have hfree : ¬((s.i3cOwed || s.mgt.i3cp.reply.isSome || s.shutOver) = true) := by simp [howed, hreply, hover]
  have hbytes : ¬(b.isEmpty = true) := mt List.isEmpty_iff.1 hb
  simp only [State.i3cWrite, State.wake_of_not_idle hidle, State.standbyWake_of_not_standby hstandby, if_neg hfree, if_neg hbytes,
    if_pos hlen]
  rfl

end

theorem State.i3cRead_of_reply {b : List (BitVec 8)} (hreply : s.mgt.i3cp.reply = some b) (hout : s.power.replyOut ≠ some .i3c) :
    s.i3cRead = { s with
      mgt := { s.mgt with i3cp := { s.mgt.i3cp with reply := none } }, out := s.out ++ [.i3cBytes b] } := by
  have hlast : ¬((s.power.replyOut == some .i3c) = true) := by simp [hout]
  simp only [State.i3cRead, hreply, if_neg hlast]
  rfl

theorem State.i3cRead_of_nothing (hreply : s.mgt.i3cp.reply = none) (howed : s.i3cOwed = false) : s.i3cRead = s.emit .i3cNack := by
  simp [State.i3cRead, hreply, howed]

/-! ### Addresses (R318; log entry 33) -/

theorem State.i3cAssign_of_free (h : s.mgt.i3c.dynAddr = none) (a : BitVec 7) :
    s.i3cAssign a = (s.setI3c { s.mgt.i3c with dynAddr := some a }).emit
      (.i3cBytes (bigBytes 6 Config.provisionalId.toNat ++ [0x06, 0x00])) := if_neg (by simp [h])

end

/-! ### The statement -/

/-- Settles O60: each row is one transfer, which the target handles outside HDR traffic alone. -/
theorem i3cTarget : Obligations.I3cTarget := by
  refine ⟨fun s hup => ?bus, fun s hup hsdr => ?codes⟩
  case bus =>
    refine ⟨fun hsdr hidle hstandby howed hreply hover b hb hlen => ?_, fun hsdr hidle hstandby howed b => ?_,
      fun hsdr b hreply hout => ?_, fun hsdr hreply howed => ?_, fun hsdr => State.done_onI3c_of_sdr hup hsdr rfl,
      exec_i3cHdrExit_of_up hup, fun hhdr b => congrArg State.done (State.onI3c_of_hdr hhdr _), fun hsdr hfree a => ?_,
      fun hsdr => ⟨State.done_onI3c_of_sdr hup hsdr rfl, State.done_onI3c_of_sdr hup hsdr rfl⟩⟩
    · exact State.done_onI3c_of_sdr hup hsdr (State.i3cWrite_of_free hidle hstandby howed hreply hover hb hlen)
    · exact State.done_onI3c_of_sdr hup hsdr (State.i3cWrite_of_owed hidle hstandby howed b)
    · exact State.done_onI3c_of_sdr hup hsdr (State.i3cRead_of_reply hreply hout)
    · exact State.done_onI3c_of_sdr hup hsdr (State.i3cRead_of_nothing hreply howed)
    · exact State.done_onI3c_of_sdr hup hsdr (State.i3cAssign_of_free hfree a)
  case codes =>
    have answered {f : State → State} {t : State} (h : f s = t) := State.done_onI3c_of_sdr hup hsdr h
    exact ⟨fun e hbit => ⟨answered (if_pos hbit), answered (if_pos hbit)⟩, answered rfl,
      fun a hfree => answered (if_pos ⟨rfl, hfree⟩), fun x a hother => answered (if_neg fun h => hother h.1),
      fun a b hheld => answered (if_pos (by simp [hheld])), answered rfl, answered rfl, answered rfl, answered rfl, answered rfl,
      answered rfl⟩

end Sys2Proof.Machine
end

section
/-! SUPPORT. The error log (R329): where a new entry stands, what a full log gives up, and how a push changes the log. -/
namespace Sys2Proof.Machine

section
variable (e : LogEnt)

theorem LogEnt.precedes_iff (x : LogEnt) :
    e.precedes x = true ↔ x.tick = e.tick ∧ x.fc = e.fc ∧ (e.block < x.block ∨ e.block = x.block ∧ e.code < x.code) := by
  simp only [LogEnt.precedes, Bool.and_eq_true, Bool.or_eq_true, beq_iff_eq, decide_eq_true_eq, and_assoc]

/-! ### Where a new entry stands -/

theorem mem_logIn (l : List LogEnt) : e ∈ logIn e l := List.mem_append_right _ List.mem_cons_self

theorem length_logIn (l : List LogEnt) : (logIn e l).length = l.length + 1 := by
  have htail : (l.reverse.takeWhile e.precedes).length ≤ l.length := by
    simpa using (List.takeWhile_sublist (p := e.precedes) (l := l.reverse)).length_le
  simp only [logIn, List.length_append, List.length_take, List.length_cons, List.length_reverse]
  omega

theorem takeWhile_reverse_eq_nil {a : List LogEnt} (h : ∀ y, a.getLast? = some y → ¬(e.precedes y = true)) :
    a.reverse.takeWhile e.precedes = [] := by
  rcases List.eq_nil_or_concat' a with rfl | ⟨front, y, rfl⟩
  · rfl
  · rw [List.reverse_concat, List.takeWhile_cons_of_neg (h y List.getLast?_concat)]

/-- A new entry stands before the entries at the end that it precedes, and behind all others. -/
theorem logIn_append {a b : List LogEnt} (hb : ∀ x ∈ b, e.precedes x = true)
    (ha : ∀ y, a.getLast? = some y → ¬(e.precedes y = true)) : logIn e (a ++ b) = a ++ e :: b := by
  have htail : (a ++ b).reverse.takeWhile e.precedes = b.reverse := by
    rw [List.reverse_append, List.takeWhile_append_of_pos (fun x hx => hb x (List.mem_reverse.1 hx)),
      takeWhile_reverse_eq_nil e ha, List.append_nil]
  simp only [logIn, htail, List.length_append, List.length_reverse, Nat.add_sub_cancel, List.take_left, List.reverse_reverse]

end

/-! ### What a full log gives up -/

/-- A class C or information entry, which a full log gives up first. -/
def LogEnt.minor (x : LogEnt) : Bool := x.cls == .c || x.cls == .info

theorem LogEnt.minor_iff (x : LogEnt) : x.minor = true ↔ x.cls = .c ∨ x.cls = .info := by
  simp [LogEnt.minor]

theorem LogEnt.not_minor_iff (x : LogEnt) : x.minor = false ↔ x.cls ≠ .c ∧ x.cls ≠ .info := by
  simp [LogEnt.minor]

theorem logDrop_cons (x : LogEnt) (r : List LogEnt) :
    logDrop (x :: r) = if x.minor then some r else (logDrop r).map (x :: ·) := rfl

theorem logDrop_of_oldest {a : List LogEnt} {x : LogEnt} (b : List LogEnt) (ha : ∀ y ∈ a, y.minor = false) (hx : x.minor = true) :
    logDrop (a ++ x :: b) = some (a ++ b) := by
  induction a with
  | nil => exact if_pos hx
  | cons y a ih =>
    have hy : y.minor = false := ha y List.mem_cons_self
    rw [List.cons_append, logDrop_cons, hy, ih fun z hz => ha z (List.mem_cons_of_mem y hz)]
    rfl

theorem logDrop_eq_none {l : List LogEnt} (h : ∀ y ∈ l, y.minor = false) : logDrop l = none := by
  induction l with
  | nil => rfl
  | cons y l ih =>
    have hy : y.minor = false := h y List.mem_cons_self
    rw [logDrop_cons, hy, ih fun z hz => h z (List.mem_cons_of_mem y hz)]
    rfl

theorem length_logDrop {l r : List LogEnt} (h : logDrop l = some r) : r.length + 1 = l.length := by
  induction l generalizing r with
  | nil => cases h
  | cons y l ih =>
    rw [logDrop_cons] at h
    split at h
    · cases h
      rfl
    · obtain ⟨d, hd, rfl⟩ := Option.map_eq_some_iff.1 h
      simp [ih hd]

/-! ### A push (R329) -/

section
variable {s : State} (e : LogEnt)

theorem State.pushLog_of_room (h : s.saf.log.length < 1024) :
    (s.pushLog e).saf.log = logIn e s.saf.log := by rw [State.pushLog, if_pos h]

variable (hfull : s.saf.log.length = 1024)
include hfull

theorem State.pushLog_of_minor {r : List LogEnt} (h : logDrop s.saf.log = some r) :
    (s.pushLog e).saf.log = logIn e r ∧ (s.pushLog e).saf.lost = s.saf.lost := by
  rw [State.pushLog, if_neg (by omega), h]
  exact ⟨rfl, rfl⟩

theorem State.pushLog_of_no_minor (h : logDrop s.saf.log = none) :
    (s.pushLog e).saf.log = logIn e s.saf.log.tail ∧ (s.pushLog e).saf.lost = satInc s.saf.lost 65535 := by
  rw [State.pushLog, if_neg (by omega), h]
  exact ⟨rfl, rfl⟩

end

/-- A push puts the entry in a log that has room for it. -/
theorem State.pushLog_log {s : State} (h : s.saf.log.length ≤ 1024) (e : LogEnt) :
    ∃ l, (s.pushLog e).saf.log = logIn e l ∧ l.length < 1024 := by
  by_cases hroom : s.saf.log.length < 1024
  · exact ⟨_, State.pushLog_of_room e hroom, hroom⟩
  · have hfull : s.saf.log.length = 1024 := by omega
    cases hdrop : logDrop s.saf.log with
    | some r => exact ⟨r, (State.pushLog_of_minor e hfull hdrop).1, by have := length_logDrop hdrop; omega⟩
    | none => exact ⟨_, (State.pushLog_of_no_minor e hfull hdrop).1, by rw [List.length_tail]; omega⟩

/-! ### The statement -/

/-- Settles O52: a push by whether the log is full, and then by what it has to give up. -/
theorem errorLogKeepsNewest : Obligations.ErrorLogKeepsNewest := by
  intro s e hlen
  obtain ⟨l, hlog, hl⟩ := State.pushLog_log hlen e
  refine ⟨?_, ?_, fun a b hb ha => ?_, State.pushLog_of_room e, fun a x b hab hfull hx ha => ?_, fun x b hxb hfull hall => ?_⟩
  · rw [hlog, length_logIn]
    exact hl
  · rw [hlog]
    exact mem_logIn e l
  · exact logIn_append e (fun x hx => (e.precedes_iff x).2 (hb x hx)) (fun y hy hp => ha y hy ((e.precedes_iff y).1 hp))
  · refine State.pushLog_of_minor e hfull ?_
    rw [hab]
    exact logDrop_of_oldest b (fun y hy => y.not_minor_iff.2 (ha y hy)) (x.minor_iff.2 hx)
  · have hdrop := logDrop_eq_none fun y hy => y.not_minor_iff.2 (hall y hy)
    have hpush := State.pushLog_of_no_minor e hfull hdrop
    rwa [hxb] at hpush

end Sys2Proof.Machine
end

section
/-! SUPPORT. Operations on a whole table: a map over its entries, a table written entry by entry, and reservations dropped from
the table of ports (R148). -/
namespace Sys2Proof.Machine

section
variable {α : Type} {d : Nat → α}

/-- The table with a function applied to each value listed. -/
def tmap (f : Nat → α → α) (t : Tbl α) : Tbl α := t.map (fun e => (e.1, f e.1 e.2))

/-- A map that keeps what unlisted keys read as is a map of what every key reads as. -/
theorem tget_tmap {f : Nat → α → α} (hf : ∀ k, f k (d k) = d k) (t : Tbl α) (k : Nat) :
    tget d (tmap f t) k = f k (tget d t k) := by
  induction t with
  | nil => exact (hf k).symm
  | cons e t ih =>
    obtain ⟨j, v⟩ := e
    have hcons : tmap f ((j, v) :: t) = (j, f j v) :: tmap f t := rfl
    rw [hcons, tget_cons, tget_cons, ih]
    by_cases hj : j = k
    · rw [if_pos hj, if_pos hj, hj]
    · rw [if_neg hj, if_neg hj]

theorem trising_tmap (f : Nat → α → α) {t : Tbl α} (h : trising t = true) : trising (tmap f t) = true := by
  induction t with
  | nil => rfl
  | cons e t ih =>
    obtain ⟨j, v⟩ := e
    obtain ⟨habove, hrising⟩ := (trising_cons j v t).1 h
    refine (trising_cons j (f j v) (tmap f t)).2 ⟨fun x hx => ?_, ih hrising⟩
    obtain ⟨y, hy, rfl⟩ := List.mem_map.1 hx
    exact habove y hy

/-- What a key reads depends on the default only where it is not listed. -/
theorem tget_congr_default {d' : Nat → α} (t : Tbl α) {k : Nat} (h : d k = d' k) : tget d t k = tget d' t k := by
  induction t with
  | nil => exact h
  | cons e t ih =>
    obtain ⟨j, v⟩ := e
    rw [tget_cons, tget_cons, ih]

variable [DecidableEq α]

theorem twf_foldl_tset (l : Tbl α) {t : Tbl α} (h : twf d t = true) :
    twf d (l.foldl (fun t e => tset d t e.1 e.2) t) = true := by
  induction l generalizing t with
  | nil => exact h
  | cons e l ih => exact ih (twf_tset d t e.1 e.2 h)

/-- Entries with rising keys, written one after the other, lie over what the table held. -/
theorem tget_foldl_tset (l : Tbl α) (hl : trising l = true) {t : Tbl α} (h : twf d t = true) (k : Nat) :
    tget d (l.foldl (fun t e => tset d t e.1 e.2) t) k = tget (fun j => tget d t j) l k := by
  induction l generalizing t with
  | nil => rfl
  | cons e l ih =>
    obtain ⟨j, v⟩ := e
    obtain ⟨habove, hrising⟩ := (trising_cons j v l).1 hl
    rw [List.foldl_cons, ih hrising (twf_tset d t j v h), tget_cons]
    by_cases hj : j = k
    · subst hj
      rw [if_pos rfl, tget_above _ l j habove, tget_tset d t j v j h, if_pos rfl]
    · rw [if_neg hj]
      exact tget_congr_default l ((tget_tset d t j v k h).trans (if_neg (Ne.symm hj)))

end

/-! ### Reservations (R148) -/

section
variable {s : State} (h : s.tablesWf = true)
include h

theorem State.trising_ports : trising s.ports = true := by
  simp only [State.tablesWf, Bool.and_eq_true] at h
  exact ((twf_iff portDef s.ports).1 (by simp [h])).1

/-- Every entry of the table of ports changes in the same way, and the table is brought back to its canonical form. -/
theorem State.port_trimPorts_map {f : Port → Port} (hf : f .init = .init) (p : Nat) :
    (State.trimPorts { s with ports := s.ports.map (fun e => (e.1, f e.2)) }).port p = f (s.port p) := by
  have hmap : s.ports.map (fun e => (e.1, f e.2)) = tmap (fun _ => f) s.ports := rfl
  have hrising : trising (tmap (fun _ => f) s.ports) = true := trising_tmap _ (State.trising_ports h)
  simp only [State.trimPorts, State.port, hmap]
  rw [tget_foldl_tset _ hrising rfl]
  exact tget_tmap (d := portDef) (fun _ => hf) s.ports p

theorem State.port_dropReservations (p : Nat) : s.dropReservations.port p = { s.port p with rsv := none } :=
  State.port_trimPorts_map h (f := fun u => { u with rsv := none }) rfl p

end

end Sys2Proof.Machine
end

section
/-! SUPPORT. Event counters (R343, R345, R347): what counting changes when one counter alone is enabled. -/
namespace Sys2Proof.Machine

section
variable {s : State}

theorem rCntCfg_ne_ovf (n m : Nat) : rCntCfg n ≠ if m < 32 then rCntOvfLo else rCntOvfHi := by
  unfold rCntCfg rCntOvfLo rCntOvfHi
  split <;> omega

/-- A counter that stays in range, or whose overflow is not reported, changes no other counter. -/
theorem State.bump_cnts {n k : Nat} (h : (s.cnt n).value.toNat + k < 2 ^ 48 ∨ s.bit (rCntCfg n) 9 = false) :
    (s.bump n k).cnts = (s.setCnt n { s.cnt n with value := BitVec.ofNat 48 ((s.cnt n).value.toNat + k) }).cnts := by
  have hcfg := rCntCfg_ne_ovf n n
  unfold State.bump State.bumpBy
  dsimp only
  generalize (if n < 32 then rCntOvfLo else rCntOvfHi) = o at hcfg ⊢
  split
  · rfl
  · next hover =>
    have hsilent : s.bit (rCntCfg n) 9 = false := h.resolve_left hover
    split
    · rfl
    · rw [if_neg]
      · rfl
      · rw [State.setBit_bit_other _ hcfg]
        exact ne_true_of_eq_false hsilent

theorem State.count_of_frozen (h : s.bit rCntGctl 0 = true) (code k : Nat) (a : Attr) (n : Nat) :
    (s.count code a k).cnt n = s.cnt n := by
  have hfrozen : s.count code a k = s.setMgt (s.mgt.tally code k) := if_pos h
  rw [hfrozen]
  rfl

theorem fld_of_listed {n : Nat} (h : n ∈ cntListed s) : s.fld (rCntCfg n) 7 1 = 1 :=
  beq_iff_eq.1 (List.mem_filter.1 h).2

/-- With one counter enabled, and the occurrence passing it, counting is a bump of that counter. -/
theorem State.count_of_single {code k n : Nat} {a : Attr} (hrun : s.bit rCntGctl 0 = false) (hlisted : cntListed s = [n])
    (hcode : s.fld (rCntCfg n) 0 7 = code) (hpass : cntPasses s n (a.keep code) = true) :
    s.count code a k = (s.setMgt (s.mgt.tally code k)).bump n k := by
  have hon : s.fld (rCntCfg n) 7 1 = 1 := fld_of_listed (hlisted ▸ List.mem_singleton_self n)
  have hruns : (s.fld (rCntCfg n) 7 1 == 1 && s.fld (rCntCfg n) 0 7 == code && cntPasses s n (a.keep code)) = true := by
    simp [hon, hcode, hpass]
  calc s.count code a k
      = countIn code (a.keep code) k (cntListed s) (s.setMgt (s.mgt.tally code k)) := if_neg (ne_true_of_eq_false hrun)
    _ = countIn code (a.keep code) k [n] (s.setMgt (s.mgt.tally code k)) := by rw [hlisted]
    _ = (s.setMgt (s.mgt.tally code k)).bump n k := if_pos hruns

end

/-! ### The statement -/

/-- Settles O48: the two halves of a counter's value, the granule with every reservation dropped, and an occurrence by whether
the counters are frozen. -/
theorem counterWrites : Obligations.CounterWrites := by
  refine ⟨fun s n v hrun hsafe hidle => ?halves, fun s v hrun hsafe hidle hwf => ?granule, fun s code k a hwf => ⟨?frozen, ?runs⟩⟩
  case halves => exact ⟨s.done_ctl_of_awake hrun hsafe hidle _, s.done_ctl_of_awake hrun hsafe hidle _⟩
  case granule =>
    refine ⟨_, s.done_ctl_of_awake hrun hsafe hidle _, rfl, fun p => ?_, ?_, ?_⟩
    · rw [State.norm_port]
      exact State.port_dropReservations hwf p
    · show s.norm.queues = s.queues
      rw [s.norm_eq hwf]
    · show s.norm.home = s.home
      rw [s.norm_eq hwf]
  case frozen => exact fun hfrozen => State.count_of_frozen hfrozen code k a
  case runs =>
    intro hrun n _ hlisted hcode hpass hrange
    have hcnts : (s.count code a k).cnts =
        (s.setCnt n { s.cnt n with value := BitVec.ofNat 48 ((s.cnt n).value.toNat + k) }).cnts := by
      rw [State.count_of_single hrun hlisted hcode hpass]
      exact State.bump_cnts (s := s.setMgt (s.mgt.tally code k)) hrange
    have hread : ∀ j, (s.count code a k).cnt j =
        if j = n then { s.cnt n with value := BitVec.ofNat 48 ((s.cnt n).value.toNat + k) } else s.cnt j := fun j =>
      (congrArg (tget cntDef · j) hcnts).trans (s.cnt_setCnt hwf n j _)
    exact ⟨by rw [hread n, if_pos rfl], fun j hj => by rw [hread j, if_neg hj]⟩

end Sys2Proof.Machine
end

section
/-! SUPPORT. PORST_N low (R228, R261, R364): the state without core supplies, and what the cold state keeps of the links, the
stored frames and the system segment. -/
namespace Sys2Proof.Machine

section
variable (s : State)

theorem Link.afterReset_init (l : Nat) : Link.afterReset l .init = .init := rfl

theorem Link.afterReset_state (l : Nat) (k : Link) : (k.afterReset l).state = .detect := rfl

/-- Every link stop is as after reset but for its presence pin (R76). -/
theorem State.unpowered_link (l : Nat) : s.unpowered.link l = (s.link l).afterReset l :=
  tget_tmap (d := linkDef) (f := Link.afterReset) Link.afterReset_init s.links l

theorem State.loseDram_links (segs : BitVec 8) : (s.loseDram segs).links = s.links := rfl

theorem State.cold_link_state (l : Nat) : (s.cold.link l).state = .detect :=
  congrArg Link.state ((s.loseDram 0xff).unpowered_link l)

/-- PORST_N low is the cold state, at most with the record of a drain that ends taken away (R232). -/
theorem State.porstLow_eq_cold : ∃ r, s.porstLow = ({ s with prk := { s.prk with sealRec := r } } : State).cold := by
  unfold State.porstLow
  split
  · exact ⟨none, rfl⟩
  · exact ⟨s.prk.sealRec, rfl⟩

end

/-! ### The statement -/

/-- Settles O6: the fields of the cold state; a table that the reset empties reads as its default. -/
theorem porstAssertResets : Obligations.PorstAssertResets := by
  intro s
  obtain ⟨r, hcold⟩ := s.porstLow_eq_cold
  refine ⟨s.porstLow.norm, rfl, ?_⟩
  rw [hcold]
  refine ⟨rfl, rfl, rfl, rfl, fun o => ?_, fun _ => rfl, fun _ => rfl, fun _ => rfl, rfl, rfl, fun _ => rfl, rfl, rfl, rfl,
    fun l => ?_, rfl, rfl, rfl, rfl, rfl, rfl, rfl, rfl, rfl, fun f => tget_tnorm _ _ _, rfl, rfl, rfl, rfl⟩
  · rw [State.norm_reg]
    exact State.reg_of_unwritten rfl
  · rw [State.norm_link]
    exact State.cold_link_state _ l

end Sys2Proof.Machine
end

section
/-! SUPPORT. An operation applied to each item in turn, and the links rewritten one after the other. -/
namespace Sys2Proof.Machine

section
variable {α : Type} {f : α → State → State}

/-- What every item keeps, the whole run keeps. -/
theorem forEach_keeps {P : State → Prop} (h : ∀ a u, P u → P (f a u)) (as : List α) {s : State} (hs : P s) :
    P (forEach f as s) := by
  induction as generalizing s with
  | nil => exact hs
  | cons a as ih => exact ih (h a s hs)

/-- Two operations that agree wherever an invariant holds have the same run. -/
theorem forEach_congr {g : α → State → State} {P : State → Prop} (hkeep : ∀ a u, P u → P (g a u))
    (h : ∀ a u, P u → f a u = g a u) (as : List α) {s : State} (hs : P s) : forEach f as s = forEach g as s := by
  induction as generalizing s with
  | nil => rfl
  | cons a as ih => rw [forEach, forEach, h a s hs, ih (hkeep a s hs)]

end

/-- The links of a list rewritten, each from what it was. -/
def State.mapLinks (g : Nat → Link → Link) (ls : List Nat) (s : State) : State :=
  forEach (fun l u => u.setLink l (g l (u.link l))) ls s

section
variable {s : State} (g : Nat → Link → Link) (ls : List Nat)

theorem State.mapLinks_eq_links : ∃ ks, State.mapLinks g ls s = { s with links := ks } := by
  refine forEach_keeps (P := fun u => ∃ ks, u = { s with links := ks }) (fun l u hu => ?_) ls ⟨s.links, rfl⟩
  obtain ⟨ks, rfl⟩ := hu
  exact ⟨_, rfl⟩

theorem State.link_of_links_eq {s t : State} (h : t.links = s.links) (l : Nat) : t.link l = s.link l :=
  congrArg (tget linkDef · l) h

theorem mem_links16 {l : Nat} : l ∈ links16 ↔ l < 16 := List.mem_range

theorem nodup_links16 : links16.Nodup := List.nodup_range

variable (h : s.tablesWf = true)
include h

theorem State.wf_mapLinks : (State.mapLinks g ls s).tablesWf = true :=
  forEach_keeps (P := fun u => u.tablesWf = true) (fun l u hu => u.wf_setLink hu l _) ls h

theorem State.setLink_link_self (l : Nat) : s.setLink l (s.link l) = s := by
  have hlinks : twf linkDef s.links = true := by
    simp only [State.tablesWf, Bool.and_eq_true] at h
    simp [h]
  exact congrArg (fun t => { s with links := t }) (tset_get linkDef s.links l hlinks)

theorem State.link_mapLinks (hls : ls.Nodup) (j : Nat) :
    (State.mapLinks g ls s).link j = if j ∈ ls then g j (s.link j) else s.link j := by
  induction ls generalizing s with
  | nil => rfl
  | cons l ls ih =>
    obtain ⟨hl, hrest⟩ := List.nodup_cons.1 hls
    have hstep : State.mapLinks g (l :: ls) s = State.mapLinks g ls (s.setLink l (g l (s.link l))) := rfl
    rw [hstep, ih (s.wf_setLink h l _) hrest, s.link_setLink h]
    by_cases hj : j = l
    · subst hj
      simp [hl]
    · simp [hj]

end

end Sys2Proof.Machine
end

section
/-! SUPPORT. Idle (R354) and Standby (R355, R357): the links when Standby is reached, and the level of STBY_ACK. -/
namespace Sys2Proof.Machine

section
variable (s : State)

theorem exec_idleEntry : exec .idleEntry s =
    .next (if s.mayIdle then { s with power := { s.power with idle := true } } else s).norm := rfl

/-- Driving STBY_ACK sets its level, and is recorded when the level changes. -/
theorem State.driveStby_eq (b : Bool) : ∃ o, s.driveStby b = { s with power := { s.power with stbyAck := b }, out := o } := by
  unfold State.driveStby
  split
  · next h => exact ⟨s.out, by rw [← beq_iff_eq.1 h]⟩
  · exact ⟨_, rfl⟩

theorem State.standbyWake_of_cause {w : Wake} (hboot : s.power.boot = .standby) (hack : s.power.stbyAck = true)
    (hwake : s.wakes w = true) : s.standbyWake w = { s with
      power := { s.power with wakeCause := wakeCode w, stbyAck := false }, out := s.out ++ [.stbyAck false] } := by
  have hcause : (s.power.boot == .standby && s.power.stbyAck && s.wakes w) = true := by simp [hboot, hack, hwake]
  rw [State.standbyWake, if_pos hcause]
  exact if_neg (by simp [hack])

theorem State.standbyWake_of_no_cause {w : Wake} (h : s.wakes w = false) : s.standbyWake w = s := if_neg (by simp [h])

/-- What Standby makes of a link: unless it listens for a wake or is in QUARANTINE, it goes to electrical idle. -/
def State.standbyLink (s : State) (l : Nat) (k : Link) : Link :=
  if s.bit (rLnkCtrl l) 7 || k.state == .quarantine then k else { k with state := .disabled }

theorem State.standbyLink_of_kept {l : Nat} {k : Link} (h : s.bit (rLnkCtrl l) 7 = true ∨ k.state = .quarantine) :
    s.standbyLink l k = k := if_pos (by simpa using h)

theorem State.standbyLink_of_idle {l : Nat} {k : Link} (hbit : s.bit (rLnkCtrl l) 7 = false) (hstate : k.state ≠ .quarantine) :
    (s.standbyLink l k).state = .disabled := by
  rw [State.standbyLink, if_neg (by simp [hbit, hstate])]

theorem State.standbyReached_of_entry (h : s.tablesWf = true) (hboot : s.power.boot = .standbyEntry)
    (hpath : s.power.replyPath = none) : ∃ o, s.standbyReached = { State.mapLinks s.standbyLink links16 s with
      power := { s.power with boot := .standby, stbyAck := true }, out := o } := by
  have hlinks : forEach (fun l u => if u.bit (rLnkCtrl l) 7 || (u.link l).state == .quarantine then u
      else u.setLink l { u.link l with state := .disabled }) links16 s = State.mapLinks s.standbyLink links16 s := by
    refine forEach_congr (P := fun u => u.tablesWf = true ∧ u.csr = s.csr) (fun l u hu => ⟨u.wf_setLink hu.1 l _, hu.2⟩)
      (fun l u ⟨hwf, hcsr⟩ => ?_) links16 ⟨h, rfl⟩
    have hbit : u.bit (rLnkCtrl l) 7 = s.bit (rLnkCtrl l) 7 := by
      simp only [State.bit, State.fld, State.reg, State.reg3, hcsr]
    simp only [State.standbyLink, hbit]
    split
    · exact (State.setLink_link_self hwf l).symm
    · rfl
  have hentry : (s.power.boot == .standbyEntry && s.power.replyPath.isNone) = true := by simp [hboot, hpath]
  obtain ⟨ks, hks⟩ := State.mapLinks_eq_links (s := s) s.standbyLink links16
  rw [State.standbyReached, if_pos hentry, hlinks, hks]
  exact State.driveStby_eq _ true

end

/-! ### The statement -/

/-- Settles O11: Idle by its conditions, Standby by what it makes of each link, a wake by whether its cause is enabled. -/
theorem idleAndStandby : Obligations.IdleAndStandby := by
  refine ⟨⟨fun s hmay => ?_, fun s hmay => ?_, fun s hidle => congrArg State.done (if_pos hidle)⟩, fun s hwf hboot hpath => ?reached,
    fun s w hboot hack hwake => congrArg State.done (s.standbyWake_of_cause hboot hack hwake),
    fun s w hno => congrArg State.done (s.standbyWake_of_no_cause hno)⟩
  · rw [exec_idleEntry, if_pos hmay]
  · rw [exec_idleEntry, if_neg (ne_true_of_eq_false hmay)]
  case reached =>
    obtain ⟨o, hreached⟩ := s.standbyReached_of_entry hwf hboot hpath
    have hread : ∀ l, l < 16 → s.standbyReached.norm.link l = s.standbyLink l (s.link l) := by
      intro l hl
      have hlinks : s.standbyReached.links = (State.mapLinks s.standbyLink links16 s).links := by rw [hreached]
      rw [State.norm_link, State.link_of_links_eq hlinks, State.link_mapLinks _ _ hwf nodup_links16]
      exact if_pos (mem_links16.2 hl)
    obtain ⟨ks, hks⟩ := State.mapLinks_eq_links (s := s) s.standbyLink links16
    rw [hks] at hreached
    have hframe : s.standbyReached.norm = { s.norm with
        links := tnorm linkDef ks, power := { s.power with boot := .standby, stbyAck := true }, out := o } := by
      rw [hreached]
      rfl
    rw [s.norm_eq hwf] at hframe
    refine ⟨s.standbyReached.norm, rfl, by rw [hframe], by rw [hframe], fun l hl hbit hstate => ?_, fun l hl hkept => ?_,
      by rw [hframe], by rw [hframe], by rw [hframe], by rw [hframe]⟩
    · rw [hread l hl]
      exact s.standbyLink_of_idle hbit hstate
    · rw [hread l hl]
      exact s.standbyLink_of_kept hkept

end Sys2Proof.Machine
end

section
/-! SUPPORT. A boot in a state that has stopped (R338, R341): the selection of firmware keeps the stop, and training then leads
nowhere. -/
namespace Sys2Proof.Machine

section
variable (s : State)

theorem Reported.logSlot (n : Nat) : Reported s (s.logSlot n) := by
  unfold State.logSlot
  split
  · exact .refl s
  · exact Reported.logEvent s _ _ _ _ _ _

/-- The selection of firmware logs the slots that fail, and changes the management state alone. -/
theorem State.selectFw_eq_setMgt : ∃ u m, Reported s u ∧ s.selectFw = u.setMgt m := by
  unfold State.selectFw
  dsimp only
  split
  · exact ⟨s, _, .refl s, rfl⟩
  · split
    · exact ⟨_, _, Reported.logSlot s _, rfl⟩
    · exact ⟨_, _, (Reported.logSlot s _).trans (Reported.logSlot _ _), rfl⟩

theorem State.selectFw_boot : s.selectFw.power.boot = s.power.boot := by
  obtain ⟨u, m, hu, hselect⟩ := s.selectFw_eq_setMgt
  rw [hselect]
  exact hu.boot

theorem State.selectFw_safe : s.selectFw.saf.safe = s.saf.safe := by
  obtain ⟨u, m, hu, hselect⟩ := s.selectFw_eq_setMgt
  rw [hselect]
  exact hu.safe

variable {s} (h : s.saf.safe = .stop)
include h

theorem State.stopState_of_stopped (block code : Nat) : s.stopState block code = s := if_pos (by simp [h])

/-- In a device that has stopped, voted fields without a majority are logged and nothing more. -/
theorem Reported.guardVotes_of_stopped (used : Nat → Bool) : Reported s (s.guardVotes used) := by
  have herr := Reported.err s rSafErr 11 3 .x none 0 0
  unfold State.guardVotes
  split
  · exact .refl s
  · rw [State.voteFatal, State.stopState_of_stopped (herr.safe.trans h)]
    exact herr

theorem State.withVotes_of_stopped (used : Nat → Bool) (f : State → State) : s.withVotes used f = s.guardVotes used :=
  if_pos (beq_iff_eq.2 ((Reported.guardVotes_of_stopped h used).safe.trans h))

/-- A boot that has stopped does not go beyond its training. -/
theorem State.bootRun_boot_of_stopped (hstrap : s.power.straps.recover = false) (way : BootWay) (d : Fin 3) (r2 : Bool)
    (rate : BitVec 3) (clash : Bool) (id : BitVec 16) (rfm : Option Nat) :
    (s.bootRun way (.pass d r2 rate clash id rfm)).power.boot = s.power.boot := by
  have hstopped : (s.setMgt s.mgt.trialStart).selectFw.saf.safe = .stop := (State.selectFw_safe _).trans h
  have hstraps : ¬((s.setMgt s.mgt.trialStart).power.straps.recover = true) := ne_true_of_eq_false hstrap
  simp only [State.bootRun, if_neg hstraps]
  rw [State.withVotes_of_stopped hstopped, (Reported.guardVotes_of_stopped hstopped _).boot]
  exact State.selectFw_boot _

end

/-! ### The statement -/

/-- The reset state but for a stop that nothing has ended: PORST_N is still low. -/
def stoppedReset : State := { State.reset with saf := { Saf.init with safe := .stop } }

/-- Refutes O7: the second part does not ask that the device has not stopped. From the reset state in the stop state, which
satisfies every hypothesis, a boot with training passed stands still at its training and never reaches step 7. -/
theorem not_bootWithoutSeal : ¬ Obligations.BootWithoutSeal := by
  intro h
  obtain ⟨-, hboot, -⟩ := h
  obtain ⟨hrelease, -⟩ := hboot stoppedReset ⟨0, false⟩ 0 false 0 false 0 none rfl rfl rfl
  obtain ⟨t, hexec, hrun, -⟩ := hrelease rfl rfl
  have hstill : t.power.boot = .reset := by
    injection hexec with ht
    rw [← ht]
    exact State.bootRun_boot_of_stopped (s := State.cause { stoppedReset with power := { stoppedReset.power with
      porstN := true, vmainOk := true, vaonOk := true, refclk := true, straps := ⟨0, false⟩ } } 0) rfl rfl .cold 0 false 0 false 0
      none
  rw [hstill] at hrun
  cases hrun

end Sys2Proof.Machine
end

section
/-! SUPPORT. The stop state (R341, R363, R391): what stopping the channels leaves alone, and what is abandoned on the way. -/
namespace Sys2Proof.Machine

/-! ### Channels that end with an error -/

/-- What a state holds apart from what reporting changes, the DMA channels and the home's slots. -/
def State.offDma (s : State) : State := { s.core with dma := [], home := { s.home with slots := [] } }

/-- `t` follows from `s` by reporting and by channels that end: a home without slots stays without. -/
def ChannelsEnd (s t : State) : Prop := t.offDma = s.offDma ∧ (s.home.slots = [] → t.home.slots = [])

section
variable {s t : State}

theorem ChannelsEnd.refl (s : State) : ChannelsEnd s s := ⟨rfl, id⟩

theorem ChannelsEnd.trans {u : State} (h : ChannelsEnd s t) (k : ChannelsEnd t u) : ChannelsEnd s u :=
  ⟨k.1.trans h.1, fun hs => k.2 (h.2 hs)⟩

theorem ChannelsEnd.of_core (h : t.core = s.core) : ChannelsEnd s t := by
  have hhome : t.home = s.home := by
    show t.core.home = s.core.home
    rw [h]
  refine ⟨?_, fun hs => by rw [hhome, hs]⟩
  rw [State.offDma, State.offDma, h, hhome]

theorem ChannelsEnd.dmaForget (s : State) (n : Nat) : ChannelsEnd s (s.dmaForget n) := by
  refine ⟨rfl, fun hs => ?_⟩
  simp only [State.dmaForget, hs, List.map_nil]

theorem ChannelsEnd.setDch (s : State) (n : Nat) (c : DmaCh) : ChannelsEnd s (s.setDch n c) := ⟨rfl, id⟩

theorem State.core_dmaIrq (s : State) (n : Nat) : (s.dmaIrq n).core = s.core := by
  unfold State.dmaIrq
  dsimp only
  generalize (if n < 32 then rIntrDmaLo else rIntrDmaHi) = o
  split
  · rfl
  · rw [State.core_driveAlert]
    split <;> split <;> simp

/-- The report of a channel that ends, and its interrupt where that is enabled. -/
theorem ChannelsEnd.errIrq (s : State) (n : Nat) :
    ChannelsEnd s (if (s.err rDmaErr 9 1 .info (some n) 0).bit (rDmaCtrl n) 1 then (s.err rDmaErr 9 1 .info (some n) 0).dmaIrq n
      else s.err rDmaErr 9 1 .info (some n) 0) := by
  refine .of_core ?_
  split
  · rw [State.core_dmaIrq, State.core_err]
  · rw [State.core_err]

theorem ChannelsEnd.dmaError (s : State) (n : Nat) (status : BitVec 3) (reason : BitVec 4) :
    ChannelsEnd s (s.dmaError n status reason) :=
  ((ChannelsEnd.dmaForget s n).trans (ChannelsEnd.setDch _ n _)).trans (ChannelsEnd.errIrq _ n)

theorem ChannelsEnd.dmaHalt (s : State) : ChannelsEnd s s.dmaHalt :=
  forEach_keeps (P := ChannelsEnd s) (fun n u hu => by
    split
    · exact hu.trans (ChannelsEnd.dmaError u n 4 0)
    · exact hu) _ (.refl s)

section
variable (h : ChannelsEnd s t)
include h

theorem ChannelsEnd.queues : t.queues = s.queues := by
  show t.offDma.queues = s.offDma.queues; rw [h.1]
theorem ChannelsEnd.ports : t.ports = s.ports := by
  show t.offDma.ports = s.offDma.ports; rw [h.1]
theorem ChannelsEnd.cry : t.cry = s.cry := by
  show t.offDma.cry = s.offDma.cry; rw [h.1]
theorem ChannelsEnd.frames : t.sto.frames = s.sto.frames := by
  show t.offDma.sto.frames = s.offDma.sto.frames; rw [h.1]
theorem ChannelsEnd.safe : t.saf.safe = s.saf.safe := by
  show t.offDma.saf.safe = s.offDma.saf.safe; rw [h.1]
theorem ChannelsEnd.drainBusy : t.saf.drainBusy = s.saf.drainBusy := by
  show t.offDma.saf.drainBusy = s.offDma.saf.drainBusy; rw [h.1]

end
end

/-! ### What is abandoned (R341) -/

/-- A queue whose requests are gone, and whose answers are given up. -/
def Queue.abandoned (u : Queue) : Queue := { u with ents := [], answers := u.answers.map (Ans.giveUp stHalted) }

/-- A port whose lay-by, token, fence and reservation are gone. -/
def Port.abandoned (u : Port) : Port :=
  { u with layby := [], missToken := none, parked := [], pfq := [], fence := none, rsv := none }

/-- The work in flight is gone, and the channels have not ended yet. -/
def State.abandonWork (s : State) : State :=
  let u := State.trimPorts { s with
    queues := s.queues.map (fun e => (e.1, e.2.abandoned)), ports := s.ports.map (fun e => (e.1, e.2.abandoned)) }
  { u with home := { u.home with slots := [], chains := [], heldSet := [], recovering := [], recallDue := [] } }

section
variable (s : State)

theorem State.abandon_eq : s.abandon = s.abandonWork.dmaHalt := rfl

theorem State.abandonWork_queue (q : Nat) : s.abandonWork.queue q = (s.queue q).abandoned :=
  tget_tmap (d := queueDef) (f := fun _ => Queue.abandoned) (fun _ => rfl) s.queues q

theorem State.abandonWork_port (h : trising s.ports = true) (p : Nat) : s.abandonWork.port p = (s.port p).abandoned :=
  (tget_foldl_tset _ (trising_tmap (fun _ => Port.abandoned) h) rfl p).trans
    (tget_tmap (d := portDef) (f := fun _ => Port.abandoned) (fun _ => rfl) s.ports p)

/-- HALT_NOTICE is messages, and what counting them reports. -/
theorem Reported.haltNotice (block code : Nat) (cls : Cls) (shoulder : Bool) :
    Reported s (s.haltNotice block code cls shoulder) :=
  forEach_keeps (P := Reported s) (fun l u hu => by
    split
    · exact hu.trans (Reported.sendMsg u l _)
    · exact hu) _ (.refl s)

/-- The device stops, tells its partners, abandons its work, and ends its channels. -/
theorem State.stopState_of_running (h : s.saf.safe ≠ .stop) (block code : Nat) :
    ∃ u, Reported { s with saf := { s.saf with safe := .stop, drainBusy := false } } u ∧
      s.stopState block code = u.abandonWork.dmaHalt := by
  refine ⟨_, Reported.haltNotice _ block code .x false, ?_⟩
  rw [State.stopState, if_neg (by simp [h])]
  exact State.abandon_eq _

end

/-! ### The causes (R363, R391) -/

section
variable {s : State}

theorem State.driveAlert_overTemp : s.driveAlert.power.overTemp = s.power.overTemp := by
  unfold State.driveAlert
  dsimp only
  split <;> rfl

/-- After an over-temperature stop ALERT_N is low whatever is pending. -/
theorem State.driveAlert_alertN_of_overTemp (h : s.power.overTemp = true) : s.driveAlert.power.alertN = false := by
  have hlow : alertLow s = true := by simp [alertLow, h]
  rw [State.driveAlert_alertN, State.alertLow_driveAlert, hlow]
  rfl

end

/-! ### The statement -/

/-- Settles O10: the two causes log and stop; the stop state is entered by abandoning the work and ending the channels. -/
theorem stopStateAbandons : Obligations.StopStateAbandons := by
  refine ⟨fun s hclock => ⟨congrArg State.done (if_pos hclock), fun hcool => ?hot⟩, fun s block code hsafe hwf => ?stop⟩
  case hot =>
    have hcause : (s.power.boot.clocked && !s.power.overTemp) = true := by simp [hclock, hcool]
    refine ⟨_, congrArg State.done (if_pos hcause), rfl, ?_, ?_⟩
    · exact State.driveAlert_alertN_of_overTemp rfl
    · exact State.driveAlert_overTemp
  case stop =>
    obtain ⟨u, hu, hstop⟩ := s.stopState_of_running hsafe block code
    have hend := ChannelsEnd.dmaHalt u.abandonWork
    have hports : trising u.ports = true := by rw [hu.ports]; exact State.trising_ports hwf
    intro t
    have ht : t = u.abandonWork.dmaHalt := hstop
    rw [ht]
    refine ⟨hend.safe.trans hu.safe, hend.drainBusy.trans hu.drainBusy, fun q => ?_, fun p => ?_, hend.2 rfl,
      hend.frames.trans hu.frames, congrArg Crypt.keys (hend.cry.trans hu.cry)⟩
    · have hqueue : u.abandonWork.dmaHalt.queue q = (s.queue q).abandoned := by
        rw [State.queue, hend.queues]
        refine (State.abandonWork_queue u q).trans ?_
        rw [State.queue, hu.queues]
        rfl
      rw [hqueue]
      exact ⟨rfl, rfl⟩
    · have hport : u.abandonWork.dmaHalt.port p = (u.port p).abandoned := by
        rw [State.port, hend.ports]
        exact State.abandonWork_port u hports p
      rw [hport]
      exact ⟨rfl, rfl, rfl, rfl⟩

end Sys2Proof.Machine
end

section
/-! SUPPORT. The tick boundary (R31, R295, R362) with nothing to police, report or check: what closes with the tick, and what
the steps of the tick that opens leave alone. -/
namespace Sys2Proof.Machine

/-! ### What the statement reads of a boundary -/

/-- The part of a state that a quiet boundary is judged by: the tick and its marks, the throttle level and the guard, the
prefetch tokens of a port, queues, keys and stored frames. -/
def State.tickCore (s : State) : State :=
  { State.reset with
    pending := s.pending, tick := s.tick, fc := s.fc, queues := s.queues, cry := s.cry
    power := { Power.init with
      softPending := s.power.softPending, cap := s.power.cap, level := s.power.level, guard := s.power.guard }
    wp := { Waypoint.init with grantPort := s.wp.grantPort, portTokens := s.wp.portTokens }
    sto := { Store.init with frames := s.sto.frames }
    mgt := { Mgt.init with shoulder := s.mgt.shoulder }
    saf := { Saf.init with overrunRun := s.saf.overrunRun, stepsDone := s.saf.stepsDone, marker := s.saf.marker } }

/-- That part with what the close of a tick reads besides: registers, the staged cap, the guard's mark and the allowance. -/
def State.closeCore (s : State) : State :=
  { s.tickCore with
    csr := s.csr
    power := { s.tickCore.power with
      capNext := s.power.capNext, guardTick := s.power.guardTick, allowance := s.power.allowance } }

theorem State.tickCore_of_core {s t : State} (h : t.core = s.core) : t.tickCore = s.tickCore := by
  show t.core.tickCore = s.core.tickCore
  rw [h]

/-- What two states with one core share. -/
structure SameTick (t s : State) : Prop where
  pending : t.pending = s.pending
  tick : t.tick = s.tick
  fc : t.fc = s.fc
  queues : t.queues = s.queues
  keys : t.cry.keys = s.cry.keys
  frames : t.sto.frames = s.sto.frames
  cap : t.power.cap = s.power.cap
  level : t.power.level = s.power.level
  guard : t.power.guard = s.power.guard
  portTokens : t.wp.portTokens = s.wp.portTokens
  overrunRun : t.saf.overrunRun = s.saf.overrunRun
  stepsDone : t.saf.stepsDone = s.saf.stepsDone
  marker : t.saf.marker = s.saf.marker

theorem State.sameTick_of_tickCore {s t : State} (h : t.tickCore = s.tickCore) : SameTick t s where
  pending := congrArg (fun u => u.pending) h
  tick := congrArg (fun u => u.tick) h
  fc := congrArg (fun u => u.fc) h
  queues := congrArg (fun u => u.queues) h
  keys := congrArg (fun u => u.cry.keys) h
  frames := congrArg (fun u => u.sto.frames) h
  cap := congrArg (fun u => u.power.cap) h
  level := congrArg (fun u => u.power.level) h
  guard := congrArg (fun u => u.power.guard) h
  portTokens := congrArg (fun u => u.wp.portTokens) h
  overrunRun := congrArg (fun u => u.saf.overrunRun) h
  stepsDone := congrArg (fun u => u.saf.stepsDone) h
  marker := congrArg (fun u => u.saf.marker) h

theorem State.tickCore_of_closeCore {s t : State} (h : t.closeCore = s.closeCore) : t.tickCore = s.tickCore := by
  show t.closeCore.tickCore = s.closeCore.tickCore
  rw [h]

/-- What is done only in some cases keeps the core when it keeps it where it is done. -/
theorem State.tickCore_ite {c : Prop} [Decidable c] {s t : State} (h : c → t.tickCore = s.tickCore) :
    (if c then t else s).tickCore = s.tickCore := by
  split
  case isTrue hc => exact h hc
  case isFalse => rfl

theorem State.fld_of_closeCore {s t : State} (h : t.closeCore = s.closeCore) (o lo n : Nat) :
    t.fld o lo n = s.fld o lo n := by
  show t.closeCore.fld o lo n = s.closeCore.fld o lo n
  rw [h]

theorem State.allowance_of_closeCore {s t : State} (h : t.closeCore = s.closeCore) :
    t.power.allowance = s.power.allowance :=
  congrArg (fun u => u.power.allowance) h

/-! ### What closes with the tick -/

/-- The overrun run ends (R337). -/
def State.calm (s : State) : State := { s with saf := { s.saf with overrunRun := 0 } }

/-- The grant of prefetch tokens that step 4 staged. -/
def State.grantPorts (s : State) : State :=
  { s with wp := { s.wp with grantPort := if s.stepDone 4 then s.fld rPfCtrl 6 10 else s.wp.grantPort } }

/-- The cap and the throttle level after the governor step. -/
def State.governed (s : State) (under : Bool) : State :=
  { s with power := { s.power with
      cap := if s.stepDone 6 then s.power.capNext else s.power.cap
      level := if s.stepDone 6 then nextLevel s.power.level s.power.guardTick under else s.power.level } }

/-- The guard and its mark are taken back (R361). -/
def State.disengaged (s : State) : State := { s with power := { s.power with guard := false, guardTick := false } }

/-- What a quiet tick leaves when it closes, of what the statement reads. -/
def State.closed (s : State) (meter : Nat) : State :=
  (s.calm.grantPorts.governed (decide (meter * 100 < s.power.allowance * 85))).disengaged

/-- The steps of the close before the staged values: the watchdog and the run of overruns. -/
def State.closeMarks (s : State) : State :=
  let owed := s.wearDue
  let s := s.watchdog
  let s := { s with saf := { s.saf with wearOwed := owed } }
  if s.saf.marker then { s with saf := { s.saf with overrunRun := 0 } } else s

section
variable (s : State)

theorem State.closeCore_closeMarks (hmark : s.saf.marker = true) : s.closeMarks.closeCore = s.calm.closeCore := by
  have hdog : s.watchdog = s := if_neg (by simp [hmark])
  unfold State.closeMarks
  dsimp only
  rw [hdog, if_pos hmark]
  rfl

theorem State.closeCore_stage34 : s.stage34.closeCore = s.grantPorts.closeCore := by
  unfold State.stage34 State.grantPorts
  dsimp only
  by_cases h3 : s.stepDone 3 = true <;> by_cases h4 : s.stepDone 4 = true
  · rw [if_pos h3, if_pos h4]; exact (congrArg State.closeCore (if_pos h4)).trans rfl
  · rw [if_pos h3, if_neg h4]; exact (congrArg State.closeCore (if_neg h4)).trans rfl
  · rw [if_neg h3, if_pos h4, if_pos h4]; rfl
  · rw [if_neg h3, if_neg h4, if_neg h4]

theorem State.closeCore_stage2 (i : Nat) : (s.stage2 i).closeCore = s.closeCore := by
  unfold State.stage2
  split
  · dsimp only
    split <;> split <;> rfl
  · rfl

theorem State.closeCore_stage6 (under : Bool) : (s.stage6 under).closeCore = (s.governed under).closeCore := by
  unfold State.stage6 State.governed
  by_cases h6 : s.stepDone 6 = true
  · rw [if_pos h6, if_pos h6, if_pos h6]; rfl
  · rw [if_neg h6, if_neg h6, if_neg h6]

theorem State.closeCore_noteExcess (l p : Nat) : (s.noteExcess l p).closeCore = s.closeCore := by
  unfold State.noteExcess
  split <;> rfl

/-- With policing off a port is never struck: its marks of the closed tick are taken back (R95). -/
theorem State.closeCore_police (h : s.fld rPrtGctl 0 8 = 0) (p : Nat) : (s.police p).closeCore = s.closeCore := by
  unfold State.police
  dsimp only
  rw [if_neg (by simp [h])]
  exact State.closeCore_noteExcess _ _ _

theorem State.closeCore_forEach_police (h : s.fld rPrtGctl 0 8 = 0) (ports : List Nat) :
    (forEach (fun p u => u.police p) ports s).closeCore = s.closeCore := by
  refine forEach_keeps (P := fun u => u.closeCore = s.closeCore) (fun p u hu => ?_) ports rfl
  have hoff : u.fld rPrtGctl 0 8 = 0 := (State.fld_of_closeCore hu _ _ _).trans h
  exact (u.closeCore_police hoff p).trans hu

/-- The staged values of steps 2 to 4 and the trims take effect. -/
theorem State.closeCore_staged (i : Nat) : (s.stage34.stage2 i).stageTrim.closeCore = s.closeCore.grantPorts.closeCore :=
  (State.closeCore_stage2 _ _).trans s.closeCore_stage34

/-- The governor step takes effect and the guard is taken back. -/
theorem State.closeCore_governor (under : Bool) :
    (s.stage6 under).disengaged.closeCore = (s.closeCore.governed under).disengaged.closeCore :=
  congrArg (fun u => u.disengaged.closeCore) (s.closeCore_stage6 under)

/-- The governor step, the guard and policing that is off: what the close does after the staged values. -/
def State.closeRest (s : State) (meter : Nat) : State :=
  let s := s.stage6 (decide (meter * 100 < s.power.allowance * 85))
  let s := { s with power := { s.power with guard := false, guardTick := false } }
  forEach (fun p s => s.police p) s.portsSeen s

theorem State.governed_of_closeCore {s t : State} (h : t.closeCore = s.closeCore) (under : Bool) :
    (t.governed under).disengaged.closeCore = (s.governed under).disengaged.closeCore :=
  congrArg (fun u => (u.governed under).disengaged.closeCore) h

theorem State.closeCore_closeRest (hoff : s.fld rPrtGctl 0 8 = 0) (meter : Nat) :
    (s.closeRest meter).closeCore =
      (s.governed (decide (meter * 100 < s.power.allowance * 85))).disengaged.closeCore := by
  have h6 := s.closeCore_governor (decide (meter * 100 < s.power.allowance * 85))
  exact (State.closeCore_forEach_police _ ((State.fld_of_closeCore h6 _ _ _).trans hoff) _).trans h6

/-- What a quiet tick leaves when it closes. -/
theorem State.closeCore_tickClose (hmark : s.saf.marker = true) (hoff : s.fld rPrtGctl 0 8 = 0) (i : TickIn) :
    (s.tickClose i).closeCore = (s.closed i.meter).closeCore := by
  have hstaged : (s.closeMarks.stage34.stage2 (s.closeMarks.tick.toNat % 16)).stageTrim.closeCore =
      s.calm.grantPorts.closeCore := by
    rw [State.closeCore_staged, s.closeCore_closeMarks hmark]
    rfl
  have hrest := State.closeCore_closeRest _ ((State.fld_of_closeCore hstaged _ _ _).trans hoff) i.meter
  rw [State.allowance_of_closeCore hstaged] at hrest
  exact hrest.trans (State.governed_of_closeCore hstaged _)

/-! ### What opens with the tick -/

/-- Tick and fc of the tick that opens. -/
def State.nextTick (s : State) : State := { s with tick := s.tick + 1, fc := 0 }

/-- The prefetch tokens of a port for the tick that opens (R361). -/
def State.grantTokens (s : State) : State :=
  { s with wp := { s.wp with portTokens := s.wp.grantPort * (8 - s.power.level) / 8 } }

/-- The marks of the tick that opens: the steps that complete in it, and no marker. -/
def State.marked (s : State) (run : BitVec 7) : State :=
  { s with saf := { s.saf with stepsDone := run, marker := false, overrunSeen := false } }

/-- The steps of the opening tick that complete in it (R295). -/
def State.stepsRun (s : State) (i : TickIn) : BitVec 7 :=
  BitVec.ofNat 7 (Nat.land i.steps.toNat (Nat.land s.stepsDue 0x3f))

/-- The tallies of the closed tick are taken back (R298). -/
def State.clearTallies (s : State) : State := s.setMgt { s.mgt with demand := 0, wpHits := 0, stHits := 0, pkHits := 0 }

/-- Sessions age by a tick (R314). -/
def State.ageSessions (s : State) : State :=
  s.setMgt { s.mgt with host := s.mgt.host.tickOn, i3cp := s.mgt.i3cp.tickOn }

theorem State.tickCore_setMgt (m : Mgt) (h : m.shoulder = s.mgt.shoulder) : (s.setMgt m).tickCore = s.tickCore :=
  congrArg (fun b => { s.tickCore with mgt := { Mgt.init with shoulder := b } }) h

theorem State.tickCore_setChan (c : Nat) (ch : Chan) : (s.setChan c ch).tickCore = s.tickCore := rfl

theorem State.tickCore_tickOn : s.tickOn.tickCore = s.nextTick.tickCore := by
  have hlinks : (forEach (fun l u => u.setLink l { u.link l with retrainsTick := 0 }) links16
      s.nextTick.ageSessions).tickCore = s.nextTick.ageSessions.tickCore :=
    forEach_keeps (P := fun u => u.tickCore = s.nextTick.ageSessions.tickCore)
      (fun l u hu => (State.tickCore_of_core (u.core_setLink l _)).trans hu) links16 rfl
  have hage : s.nextTick.ageSessions.tickCore = s.nextTick.tickCore := State.tickCore_setMgt _ _ rfl
  exact (State.tickCore_of_core (State.core_count _ _ _ _)).trans (hlinks.trans hage)

theorem State.tickCore_replenish : s.replenish.tickCore = s.grantTokens.tickCore := by
  unfold State.replenish State.grantTokens State.tickCore
  rfl

theorem State.tickCore_step1 (raw : List Word) : (s.step1 raw).tickCore = s.tickCore := State.tickCore_setMgt _ _ rfl

theorem State.tickCore_step2 : s.step2.tickCore = s.tickCore := State.tickCore_setMgt _ _ rfl

theorem State.tickCore_step6 : s.step6.tickCore = s.tickCore := rfl

/-- The channels with the refresh rates that firmware read last (R244). -/
def State.reportRefresh (s : State) (i : TickIn) : State :=
  forEach (fun c s =>
    let ch := s.chan c
    s.setChan c { ch with refMult := ch.refNext, refNext := i.refMult.getD c 0, eccTick := 0 }) (List.range 16) s

/-- Whether the calibration of the tick drifted (R299). -/
def State.setDrift (s : State) (drift : Bool) : State := { s with saf := { s.saf with drift := drift } }

/-- Whether the DRAM was hot in the tick (R360). -/
def State.setHot (s : State) (hot : Bool) : State := { s with power := { s.power with hotTick := hot } }

/-- A hot DRAM is reported (R248). -/
def State.reportHot (s : State) (hot : Bool) : State := if hot then s.err rMemErr 7 7 .info none 0 else s

theorem State.tickCore_reportRefresh (i : TickIn) : (s.reportRefresh i).tickCore = s.tickCore :=
  forEach_keeps (P := fun u => u.tickCore = s.tickCore)
    (fun c u hu => (u.tickCore_setChan c _).trans hu) (List.range 16) rfl

theorem State.tickCore_reportHot (hot : Bool) : (s.reportHot hot).tickCore = s.tickCore :=
  State.tickCore_ite fun _ => State.tickCore_of_core (s.core_err _ _ _ _ _ _ _)

theorem State.tickCore_setDrift (drift : Bool) : (s.setDrift drift).tickCore = s.tickCore := rfl

theorem State.tickCore_setHot (hot : Bool) : (s.setHot hot).tickCore = s.tickCore := rfl

theorem State.tickCore_dramReports (i : TickIn) (hfatal : i.wrEccFatal = false) :
    (s.dramReports i).tickCore = s.tickCore := by
  have hreports : s.dramReports i = (((s.reportRefresh i).setDrift i.drift).reportHot i.dramHot).setHot i.dramHot :=
    if_neg (by simp [hfatal])
  rw [hreports, State.tickCore_setHot, State.tickCore_reportHot, State.tickCore_setDrift, State.tickCore_reportRefresh]

/-- Step 5 is not among the steps that complete. -/
theorem State.stepsRun_four (i : TickIn) (h : i.steps.getLsbD 4 = false) : (s.stepsRun i).getLsbD 4 = false := by
  have hbit : i.steps.toNat.testBit 4 = false := h
  rw [State.stepsRun, BitVec.getLsbD_ofNat]
  show (decide (4 < 7) && (i.steps.toNat &&& (s.stepsDue &&& 0x3f)).testBit 4) = false
  rw [Nat.testBit_and, hbit]
  rfl

/-- The steps that are due besides the persisting of wear (R295, R296). -/
theorem State.stepsDue_scheduled : Nat.land s.stepsDue 0x3f = if s.mgt.shoulder then 0x11 else 0x3f := by
  unfold State.stepsDue
  split
  · rfl
  · split <;> rfl

/-- The work of the opening tick before the reports of the DRAM: marks, steps 1 and 2, tallies. -/
def State.workStart (s : State) (i : TickIn) (run : BitVec 7) : State :=
  let s := s.marked run
  let s := if run.getLsbD (1 - 1) then s.step1 i.telem else s
  let s := s.clearTallies
  if run.getLsbD (2 - 1) then s.step2 else s

theorem State.tickCore_workStart (i : TickIn) (run : BitVec 7) :
    (s.workStart i run).tickCore = (s.marked run).tickCore := by
  refine (State.tickCore_ite fun _ => State.tickCore_step2 _).trans ?_
  refine (State.tickCore_setMgt _ _ rfl).trans ?_
  exact State.tickCore_ite fun _ => State.tickCore_step1 _ _

/-- The work of a tick without step 5. -/
theorem State.tickWork_of_no_step5 (i : TickIn) (hfour : i.steps.getLsbD 4 = false) :
    s.tickWork i = (if (s.stepsRun i).getLsbD (6 - 1) then ((s.workStart i (s.stepsRun i)).dramReports i).step6
      else (s.workStart i (s.stepsRun i)).dramReports i) := by
  have hfive : (s.stepsRun i).getLsbD (5 - 1) = false := s.stepsRun_four i hfour
  have hskip : (if (s.stepsRun i).getLsbD (5 - 1) then ((s.workStart i (s.stepsRun i)).dramReports i).step5s i.selfFail
      else (s.workStart i (s.stepsRun i)).dramReports i) = (s.workStart i (s.stepsRun i)).dramReports i := by
    rw [hfive]
    rfl
  exact congrArg (fun u => if (s.stepsRun i).getLsbD (6 - 1) then State.step6 u else u) hskip

/-- The steps of a tick without safety checks touch nothing that the statement reads but the marks. -/
theorem State.tickCore_tickWork (i : TickIn) (hfatal : i.wrEccFatal = false) (hfour : i.steps.getLsbD 4 = false) :
    (s.tickWork i).tickCore = (s.marked (s.stepsRun i)).tickCore := by
  rw [s.tickWork_of_no_step5 i hfour]
  exact (State.tickCore_ite fun _ => State.tickCore_step6 _).trans
    ((State.tickCore_dramReports _ i hfatal).trans (s.tickCore_workStart i _))

/-! ### The whole boundary -/

/-- A trial image that has run for a tick is kept (R305). -/
def State.endTrial (s : State) : State :=
  if s.mgt.trial && s.mgt.running == s.mgt.prefer then s.setMgt { s.mgt with trial := false } else s

theorem State.tickCore_endTrial : s.endTrial.tickCore = s.tickCore :=
  State.tickCore_ite fun _ => State.tickCore_setMgt _ _ rfl

theorem State.boundary_of_ticking (hboot : s.power.boot = .run) (hsafe : s.saf.safe = .normal) (i : TickIn) :
    s.boundary i = ((s.tickClose i).tickOn.endTrial.replenish.tickWork i).softTick := by
  have hclock : ¬ ((!s.power.boot.clocked) = true) := by rw [hboot]; decide
  have htick : ¬ ((!s.ticking) = true) := by rw [State.ticking, hboot, hsafe]; decide
  exact (if_neg hclock).trans (if_neg htick)

theorem State.softTick_of_not_pending (h : s.power.softPending = false) : s.softTick = s := if_neg (by simp [h])

/-- The steps that complete in a tick that opens: those of the shoulder mode, or all that are scheduled. -/
theorem State.stepsRun_eq (i : TickIn) :
    s.stepsRun i = BitVec.ofNat 7 (Nat.land i.steps.toNat (if s.mgt.shoulder then 0x11 else 0x3f)) := by
  rw [State.stepsRun, State.stepsDue_scheduled]

/-- The throttle level after the close of a tick (R362). -/
def State.levelAfter (s : State) (i : TickIn) : Nat :=
  if s.stepDone 6 then nextLevel s.power.level s.power.guardTick (decide (i.meter * 100 < s.power.allowance * 85))
  else s.power.level

/-- The grant of prefetch tokens after the close of a tick. -/
def State.grantAfter (s : State) : Nat := if s.stepDone 4 then s.fld rPfCtrl 6 10 else s.wp.grantPort

/-- What a quiet boundary leaves, of what the statement reads. -/
def State.quietTick (s : State) (i : TickIn) : State :=
  { s with
    tick := s.tick + 1, fc := 0
    power := { s.power with
      cap := if s.stepDone 6 then s.power.capNext else s.power.cap, level := s.levelAfter i, guard := false }
    wp := { s.wp with portTokens := s.grantAfter * (8 - s.levelAfter i) / 8 }
    saf := { s.saf with
      overrunRun := 0, marker := false
      stepsDone := BitVec.ofNat 7 (Nat.land i.steps.toNat (if s.mgt.shoulder then 0x11 else 0x3f)) } }

theorem State.marked_of_tickCore {s t : State} (h : t.tickCore = s.tickCore) (run : BitVec 7) :
    (t.marked run).tickCore = (s.marked run).tickCore :=
  congrArg (fun v => (v.marked run).tickCore) h

/-- The opening tick of a state that the statement sees as a given one. -/
theorem State.tickCore_opening {s u : State} (i : TickIn) (hfatal : i.wrEccFatal = false)
    (hfour : i.steps.getLsbD 4 = false) (h : u.tickCore = s.tickCore) :
    (u.tickOn.endTrial.replenish.tickWork i).tickCore =
      (s.nextTick.grantTokens.marked
        (BitVec.ofNat 7 (Nat.land i.steps.toNat (if s.mgt.shoulder then 0x11 else 0x3f)))).tickCore := by
  have hon : u.tickOn.endTrial.tickCore = s.nextTick.tickCore :=
    (State.tickCore_endTrial _).trans (u.tickCore_tickOn.trans (congrArg (fun v => v.nextTick.tickCore) h))
  have hfill : u.tickOn.endTrial.replenish.tickCore = s.nextTick.grantTokens.tickCore :=
    (State.tickCore_replenish _).trans (congrArg (fun v => v.grantTokens.tickCore) hon)
  have hshoulder : u.tickOn.endTrial.replenish.mgt.shoulder = s.mgt.shoulder := congrArg (fun v => v.mgt.shoulder) hfill
  rw [State.tickCore_tickWork _ i hfatal hfour, State.stepsRun_eq, hshoulder]
  exact State.marked_of_tickCore hfill _

theorem State.sameTick_boundary (hboot : s.power.boot = .run) (hsafe : s.saf.safe = .normal) (hmark : s.saf.marker = true)
    (hoff : s.fld rPrtGctl 0 8 = 0) (hsoft : s.power.softPending = false) (i : TickIn) (hfatal : i.wrEccFatal = false)
    (hfour : i.steps.getLsbD 4 = false) : SameTick (s.boundary i) (s.quietTick i) := by
  have hclose : (s.tickClose i).tickCore = (s.closed i.meter).tickCore :=
    State.tickCore_of_closeCore (s.closeCore_tickClose hmark hoff i)
  have hopen := State.tickCore_opening i hfatal hfour hclose
  have hpending : ((s.tickClose i).tickOn.endTrial.replenish.tickWork i).power.softPending = false :=
    (congrArg (fun v => v.power.softPending) hopen).trans hsoft
  rw [s.boundary_of_ticking hboot hsafe i, State.softTick_of_not_pending _ hpending]
  obtain ⟨hpend, htick, hfc, hqueues, hkeys, hframes, hcap, hlevel, hguard, hport, hrun, hsteps, hmarker⟩ :=
    State.sameTick_of_tickCore hopen
  simp only [State.marked, State.grantTokens, State.nextTick, State.closed, State.disengaged, State.governed,
    State.grantPorts, State.calm] at hpend htick hfc hqueues hkeys hframes hcap hlevel hguard hport hrun hsteps hmarker
  exact ⟨hpend, htick, hfc, hqueues, hkeys, hframes, hcap, hlevel, hguard, hport, hrun, hsteps, hmarker⟩

end

/-! ### The statement -/

/-- The throttle level moves by at most one and stays within 0 to 7 (R362). -/
theorem nextLevel_cases (n : Nat) (guard under : Bool) (h : n ≤ 7) :
    nextLevel n guard under ≤ 7 ∧ (guard = true → nextLevel n guard under = min 7 (n + 1)) ∧
      (guard = false → under = true → nextLevel n guard under = n - 1) ∧
      (guard = false → under = false → nextLevel n guard under = n) := by
  cases guard
  case true => exact ⟨Nat.min_le_left _ _, fun _ => rfl, nofun, nofun⟩
  case false =>
    cases under
    case true => exact ⟨(Nat.sub_le n 1).trans h, nofun, fun _ _ => rfl, nofun⟩
    case false => exact ⟨h, nofun, nofun, fun _ _ => rfl⟩

/-- Settles O12: by what the close and the opening of a quiet tick leave of the parts that the statement reads. -/
theorem tickBoundaryQuiet : Obligations.TickBoundaryQuiet := by
  refine ⟨fun s i hwf hboot hsafe hmark hoff hsoft hfatal hfour => ?boundary, nextLevel_cases⟩
  have hsame := s.sameTick_boundary hboot hsafe hmark hoff hsoft i hfatal hfour
  have hframes : twf frameDef s.sto.frames = true := by
    simp only [State.tablesWf, Bool.and_eq_true] at hwf
    simp [hwf]
  have hkeys : twf noneDef s.cry.keys = true := by
    simp only [State.tablesWf, Bool.and_eq_true] at hwf
    simp [hwf]
  refine ⟨(s.boundary i).norm, rfl, hsame.tick, hsame.fc, hsame.marker, hsame.stepsDone, hsame.overrunRun, hsame.guard,
    hsame.level, hsame.cap, ?tokens, fun q => ?queue, ?keys, ?frames, hsame.pending⟩
  case tokens =>
    have hlevel : (s.boundary i).power.level = s.levelAfter i := hsame.level
    exact hsame.portTokens.trans (congrArg (fun n => s.grantAfter * (8 - n) / 8) hlevel.symm)
  case queue => exact (State.norm_queue _ q).trans (State.queue_congr hsame.queues q)
  case keys => exact (congrArg (tnorm noneDef) hsame.keys).trans (tnorm_eq noneDef s.cry.keys hkeys)
  case frames => exact (congrArg (tnorm frameDef) hsame.frames).trans (tnorm_eq frameDef s.sto.frames hframes)

end Sys2Proof.Machine
end

section
/-! SUPPORT. Roundabouts (R82): the distance that a grant minimises, the pointers after a reset, and operations that leave
every pointer alone. -/
namespace Sys2Proof.Machine

/-! ### The distance from the pointer -/

theorem rbDist_eq_emod {n i : Nat} (ptr : Nat) (hn : 0 < n) : (rbDist n ptr i : Int) = ((i : Int) - ptr) % n := by
  have hle : ptr % n ≤ i + n := (Nat.mod_lt ptr hn).le.trans (Nat.le_add_left n i)
  calc (rbDist n ptr i : Int) = ((i : Int) + n - ptr % n) % n := by
        simp only [rbDist]
        push_cast [hle]
        rfl
    _ = ((i : Int) - ptr) % n := by
        rw [add_sub_right_comm, Int.add_emod_right, Int.sub_emod, Int.emod_emod_of_dvd _ (dvd_refl _), ← Int.sub_emod]

/-- Indices below `n` at the same distance are equal. -/
theorem rbDist_inj {n ptr i j : Nat} (hi : i < n) (hj : j < n) (h : rbDist n ptr i = rbDist n ptr j) : i = j := by
  have hmod : (i : Int) - ptr ≡ (j : Int) - ptr [ZMOD n] := by
    have hn : 0 < n := Nat.zero_lt_of_lt hi
    rw [Int.ModEq, ← rbDist_eq_emod ptr hn, ← rbDist_eq_emod ptr hn, h]
  have hij : (i : Int) ≡ j [ZMOD n] := by simpa using hmod.add_right (ptr : Int)
  exact Nat.ModEq.eq_of_lt_of_lt (Int.natCast_modEq_iff.1 hij) hi hj

/-! ### The grant -/

/-- Competitor `w` is granted before `c`: it is nearer, or has the same index and no larger secondary index. -/
def rbBefore (n ptr : Nat) (w c : Nat × Nat) : Prop :=
  rbDist n ptr w.1 < rbDist n ptr c.1 ∨ (w.1 = c.1 ∧ w.2 ≤ c.2)

section
variable {n ptr : Nat} {a b c : Nat × Nat}

theorem rbBefore.refl (a : Nat × Nat) : rbBefore n ptr a a := .inr ⟨rfl, le_rfl⟩

theorem rbBefore.trans (h : rbBefore n ptr a b) (k : rbBefore n ptr b c) : rbBefore n ptr a c := by
  rcases h with h | ⟨h, h'⟩
  · rcases k with k | ⟨k, -⟩
    · exact .inl (h.trans k)
    · exact .inl (k ▸ h)
  · rcases k with k | ⟨k, k'⟩
    · exact .inl (h ▸ k)
    · exact .inr ⟨h.trans k, h'.trans k'⟩

theorem rbBefore.total (ha : a.1 < n) (hb : b.1 < n) (h : ¬ rbBefore n ptr a b) : rbBefore n ptr b a := by
  rcases Nat.lt_trichotomy (rbDist n ptr a.1) (rbDist n ptr b.1) with hlt | heq | hgt
  · exact absurd (.inl hlt) h
  · have hindex : a.1 = b.1 := rbDist_inj ha hb heq
    rcases Nat.le_total a.2 b.2 with hle | hle
    · exact absurd (.inr ⟨hindex, hle⟩) h
    · exact .inr ⟨hindex.symm, hle⟩
  · exact .inl hgt

theorem rbBefore.dist_le (h : rbBefore n ptr a b) : rbDist n ptr a.1 ≤ rbDist n ptr b.1 := by
  rcases h with h | ⟨h, -⟩
  · exact h.le
  · rw [h]

theorem rbBefore.secondary_le (h : rbBefore n ptr a b) (hindex : b.1 = a.1) : a.2 ≤ b.2 := by
  rcases h with h | ⟨-, h⟩
  · exact absurd h (by rw [hindex]; exact lt_irrefl _)
  · exact h

end

theorem rbWinner_cons_of_none {n ptr : Nat} (c : Nat × Nat) {r : List (Nat × Nat)} (h : rbWinner n ptr r = none) :
    rbWinner n ptr (c :: r) = some c := by
  simp only [rbWinner, h]

section
variable {n ptr : Nat} {c w : Nat × Nat} {r : List (Nat × Nat)} (hrest : rbWinner n ptr r = some w)
include hrest

theorem rbWinner_cons_of_before (h : rbBefore n ptr c w) : rbWinner n ptr (c :: r) = some c := by
  simp only [rbWinner, hrest]
  exact if_pos h

theorem rbWinner_cons_of_not_before (h : ¬ rbBefore n ptr c w) : rbWinner n ptr (c :: r) = some w := by
  simp only [rbWinner, hrest]
  exact if_neg h

end

theorem rbWinner_eq_none_iff {n ptr : Nat} {cands : List (Nat × Nat)} : rbWinner n ptr cands = none ↔ cands = [] := by
  cases cands with
  | nil => simp [rbWinner]
  | cons c r =>
    cases hr : rbWinner n ptr r with
    | none => simp [rbWinner_cons_of_none c hr]
    | some w =>
      by_cases hcw : rbBefore n ptr c w
      · simp [rbWinner_cons_of_before hr hcw]
      · simp [rbWinner_cons_of_not_before hr hcw]

/-- The granted competitor is one of them, and before every other. -/
theorem rbWinner_mem_and_before {n ptr : Nat} {cands : List (Nat × Nat)} (hlt : ∀ c ∈ cands, c.1 < n) {w : Nat × Nat}
    (hw : rbWinner n ptr cands = some w) : w ∈ cands ∧ ∀ c ∈ cands, rbBefore n ptr w c := by
  induction cands generalizing w with
  | nil => simp [rbWinner] at hw
  | cons c r ih =>
    obtain ⟨hc, hr⟩ := List.forall_mem_cons.1 hlt
    cases hrest : rbWinner n ptr r with
    | none =>
      obtain rfl := rbWinner_eq_none_iff.1 hrest
      obtain rfl := Option.some_inj.1 ((rbWinner_cons_of_none c hrest).symm.trans hw)
      exact ⟨List.mem_cons_self, fun x hx => List.mem_singleton.1 hx ▸ rbBefore.refl _⟩
    | some v =>
      obtain ⟨hmem, hbefore⟩ := ih hr hrest
      by_cases hcv : rbBefore n ptr c v
      · obtain rfl := Option.some_inj.1 ((rbWinner_cons_of_before hrest hcv).symm.trans hw)
        exact ⟨List.mem_cons_self, List.forall_mem_cons.2 ⟨rbBefore.refl _, fun x hx => hcv.trans (hbefore x hx)⟩⟩
      · obtain rfl := Option.some_inj.1 ((rbWinner_cons_of_not_before hrest hcv).symm.trans hw)
        exact ⟨List.mem_cons_of_mem c hmem, List.forall_mem_cons.2 ⟨rbBefore.total hc (hr v hmem) hcv, hbefore⟩⟩

/-! ### The pointers -/

section
variable (s : State)

theorem State.arb_congr {t : State} (h : t.arbs = s.arbs) (b : Nat) : t.arb b = s.arb b := by simp only [State.arb, h]

theorem State.cold_arbs : s.cold.arbs = [] := rfl

theorem State.warm_arbs (soft : Bool) : (s.warm soft).arbs = [] := rfl

theorem State.arb_of_no_entry {t : State} (h : t.arbs = []) (k : Nat) : t.arb k = 0 := by
  rw [State.arb, h, tget_nil, zeroDef]

/-- What happens in one fc without a command only counts. -/
theorem Reported.fcLinks : Reported s s.fcLinks :=
  forEach_keeps (P := Reported s) (fun e u hu => by
    dsimp only
    have htoll : Reported s (if e.2.tollWait then u.count 0x06 { link := some e.1 } else u) := by
      split
      · exact hu.trans (Reported.count u _ _ _)
      · exact hu
    split
    · exact htoll.trans (Reported.count _ _ _ _)
    · exact htoll) _ (.refl s)

theorem Reported.fcQueues : Reported s s.fcQueues :=
  forEach_keeps (P := Reported s) (fun e u hu => by
    split
    · exact hu.trans (Reported.count u _ _ _)
    · exact hu) _ (.refl s)

theorem Reported.fcGovernor : Reported s s.fcGovernor := by
  unfold State.fcGovernor
  split
  · exact Reported.count s _ _ _
  · exact .refl s

theorem State.fcPass_arbs : s.fcPass.arbs = s.arbs := by
  unfold State.fcPass
  split
  · exact ((((Reported.count { s with fc := s.fc + 1 } 0x00 {} 1).trans (Reported.fcLinks _)).trans
      (Reported.fcQueues _)).trans (Reported.fcGovernor _)).arbs
  · rfl

theorem State.wins_iff {a n : Nat} {cands : List (Nat × Nat)} {c : Nat × Nat} :
    s.wins a n cands c = true ↔ rbWinner n (s.arb a) cands = some c := by
  rw [State.wins, beq_iff_eq]

end

/-! ### The statement -/

/-- Settles O30: the grant by induction on the competitors, the pointers by what resets, grants and counting write. -/
theorem roundaboutRule : Obligations.RoundaboutRule := by
  refine ⟨fun k => ⟨State.arb_of_no_entry rfl k, fun s => ⟨State.arb_of_no_entry s.cold_arbs k,
    fun soft => State.arb_of_no_entry (s.warm_arbs soft) k⟩⟩, fun n ptr cands hn hlt => ?grant,
    fun s a n i cands c hwf => ?pointer⟩
  case grant =>
    refine ⟨rbWinner_eq_none_iff, fun w hw => ?_, fun c hc d hd h => ?_⟩
    · obtain ⟨hmem, hbefore⟩ := rbWinner_mem_and_before hlt hw
      refine ⟨hmem, fun c hc => ?_, fun c hc => (hbefore c hc).secondary_le⟩
      rw [← rbDist_eq_emod ptr hn, ← rbDist_eq_emod ptr hn]
      exact Int.ofNat_le.2 (hbefore c hc).dist_le
    · rw [← rbDist_eq_emod ptr hn, ← rbDist_eq_emod ptr hn] at h
      exact rbDist_inj (hlt c hc) (hlt d hd) (Int.ofNat_inj.1 h)
  case pointer =>
    have hread := State.arb_setArb s hwf a
    exact ⟨s.wins_iff, (hread a _).trans (if_pos rfl), fun b hb => (hread b _).trans (if_neg hb),
      s.arb_congr s.fcPass_arbs⟩

end Sys2Proof.Machine
end

section
/-! SUPPORT. A merge into the youngest lay-by entry (R87). -/
namespace Sys2Proof.Machine

/-- The youngest entry with the bytes of the write over its own. -/
def LbEnt.mergedWith (y e : LbEnt) : LbEnt :=
  { y with
    op := if e.op = opWrFull ∧ y.op = opWrPtl then opWrFull else y.op
    data := mergeLine y.data e.data e.mask, mask := y.mask ||| e.mask }

/-- What a write may merge with is the youngest entry, of the same line. -/
theorem Port.youngest_of_mergeable {u : Port} {e : LbEnt} (h : u.mergeable e = true) :
    ∃ y rest, u.layby = rest ++ [y] ∧ y.line = e.line := by
  unfold Port.mergeable at h
  cases hlast : u.layby.getLast? with
  | none => simp [hlast] at h
  | some y =>
    obtain ⟨rest, hrest⟩ := List.getLast?_eq_some_iff.1 hlast
    simp only [hlast, Bool.and_eq_true, beq_iff_eq] at h
    obtain ⟨⟨⟨⟨⟨hline, -⟩, -⟩, -⟩, -⟩, -⟩ := h
    exact ⟨y, rest, hrest, hline⟩

theorem Port.merge_layby {u : Port} (e : LbEnt) {y : LbEnt} {rest : List LbEnt} (h : u.layby = rest ++ [y]) :
    (u.merge e).layby = rest ++ [y.mergedWith e] := by
  simp [Port.merge, h, LbEnt.mergedWith]

/-- Settles O27: the lay-by is its older entries and the youngest, and a merge rewrites the youngest alone. -/
theorem laybyMerge : Obligations.LaybyMerge := by
  intro u e hmerge
  obtain ⟨y, rest, hlayby, -⟩ := Port.youngest_of_mergeable hmerge
  have hmerged := Port.merge_layby e hlayby
  refine ⟨y, rest, hlayby, ?_, ?_, y.mergedWith e, hmerged, rfl, rfl, rfl, rfl, rfl, rfl⟩
  · rw [hmerged, hlayby, List.length_append, List.length_append, List.length_singleton, List.length_singleton]
  · rw [hmerged, List.take_left]

end Sys2Proof.Machine
end

section
/-! SUPPORT. What the store and the channels bring back to a slot (R123, R161, R163, R242), and link ECC over up to three reads
of a line (R247). -/
namespace Sys2Proof.Machine

/-! ### The commands whose slot waits for them -/

section
variable {s : State} {slot : Fin 4096} {t : Slot} (hslot : s.slot slot.val = some t)
include hslot

section
variable (hvotes : s.votesOk (s.votedUsed usesHome) = true) (hsafe : s.saf.safe ≠ .stop)
include hvotes hsafe

theorem exec_frameReadDone_of_reading (hfuse : t.fuse = .reading) (e : FrameErr) :
    exec (.frameReadDone slot e) s = .next (s.frameRead slot.val t e).settle.norm := by
  have hdone : execFrameReadDone slot e s = State.done (s.frameRead slot.val t e).settle := by
    simp [execFrameReadDone, hslot, hfuse, State.withVotes_of_votesOk hsafe hvotes]
  exact hdone

theorem exec_frameWriteDone_of_writing {img : FrameImg} (hwr : t.wrImg = some img) :
    exec (.frameWriteDone slot) s = .next (s.frameWritten slot.val t img).settle.norm := by
  have hdone : execFrameWriteDone slot s = State.done (s.frameWritten slot.val t img).settle := by
    simp [execFrameWriteDone, hslot, hwr, State.withVotes_of_votesOk hsafe hvotes]
  exact hdone

theorem exec_dramReadReturn_of_issued (hdram : t.dram = .reading) (hissued : s.cmdsIssued slot.val t.line false = true)
    (d : DramIn) : exec (.dramReadReturn slot d) s = .next (s.dramReturn slot.val t d).settle.norm := by
  have hdone : execDramReadReturn slot d s = State.done (s.dramReturn slot.val t d).settle := by
    simp [execDramReadReturn, hslot, hdram, hissued, State.withVotes_of_votesOk hsafe hvotes]
  exact hdone

end

theorem exec_dramReadReturn_of_not_reading (hdram : t.dram ≠ .reading) (d : DramIn) :
    exec (.dramReadReturn slot d) s = .next s.norm := by
  have hdone : execDramReadReturn slot d s = State.done s := by
    simp [execDramReadReturn, hslot, hdram]
  exact hdone

theorem exec_dramWriteAck_of_issued {v : Victim} (hv : t.victims.find? (fun v => s.cmdsIssued slot.val v.line true) = some v) :
    exec (.dramWriteAck slot) s = .next (((s.cmdsDone slot.val v.line true).updSlot slot.val (fun t =>
      { t with victims := t.victims.erase v })).settle).norm := by
  have hdone : execDramWriteAck slot s = State.done (((s.cmdsDone slot.val v.line true).updSlot slot.val (fun t =>
      { t with victims := t.victims.erase v })).settle) := by
    simp [execDramWriteAck, hslot, State.writeAck, hv]
  exact hdone

end

/-! ### Link ECC (R247) -/

/-- A read fails when one of its two bursts is uncorrectable. -/
def burstBad (a b : Burst) : Prop := a = .uncorrectable ∨ b = .uncorrectable

@[simp] theorem burstRun_nil (fixed failed : Nat) : burstRun [] fixed failed = (fixed, none) := rfl

section
variable {a b : Burst} (r : List (Burst × Burst)) (fixed failed : Nat)

theorem burstRun_of_bad (h : burstBad a b) :
    burstRun ((a, b) :: r) fixed failed = burstRun r (fixed + burstFixed a + burstFixed b) (failed + 1) := by
  rw [burstRun, if_pos (by simpa [burstBad] using h)]

theorem burstRun_of_pass (h : ¬ burstBad a b) :
    burstRun ((a, b) :: r) fixed failed = (fixed + burstFixed a + burstFixed b, some failed) := by
  rw [burstRun, if_neg (by simpa [burstBad] using h)]

end

section
variable {d : DramIn}

/-- A first read that passes is the only one. -/
theorem burstOutcome_of_pass (h1 : ¬ burstBad d.b1 d.u1) :
    burstOutcome d = (burstFixed d.b1 + burstFixed d.u1, false, false) := by
  simp [burstOutcome, burstRun_of_pass _ _ _ h1]

theorem burstOutcome_reread_of_second (h1 : burstBad d.b1 d.u1) (h2 : ¬ burstBad d.b2 d.u2) :
    (burstOutcome d).2 = (true, false) := by
  simp [burstOutcome, burstRun_of_bad _ _ _ h1, burstRun_of_pass _ _ _ h2]

theorem burstOutcome_reread_of_third (h1 : burstBad d.b1 d.u1) (h2 : burstBad d.b2 d.u2) (h3 : ¬ burstBad d.b3 d.u3) :
    (burstOutcome d).2 = (true, false) := by
  simp [burstOutcome, burstRun_of_bad _ _ _ h1, burstRun_of_bad _ _ _ h2, burstRun_of_pass _ _ _ h3]

theorem burstOutcome_poisoned (h1 : burstBad d.b1 d.u1) (h2 : burstBad d.b2 d.u2) (h3 : burstBad d.b3 d.u3) :
    (burstOutcome d).2 = (false, true) := by
  simp [burstOutcome, burstRun_of_bad _ _ _ h1, burstRun_of_bad _ _ _ h2, burstRun_of_bad _ _ _ h3]

/-- The line is poisoned when every read fails, and was read again with success when the first fails and a later one
passes. -/
theorem burstOutcome_iff :
    ((burstOutcome d).2.2 = true ↔ burstBad d.b1 d.u1 ∧ burstBad d.b2 d.u2 ∧ burstBad d.b3 d.u3) ∧
      ((burstOutcome d).2.1 = true ↔ burstBad d.b1 d.u1 ∧ (burstOutcome d).2.2 = false) := by
  by_cases h1 : burstBad d.b1 d.u1
  · by_cases h2 : burstBad d.b2 d.u2
    · by_cases h3 : burstBad d.b3 d.u3
      · simp [burstOutcome_poisoned h1 h2 h3, h1, h2, h3]
      · simp [burstOutcome_reread_of_third h1 h2 h3, h1, h3]
    · simp [burstOutcome_reread_of_second h1 h2, h1, h2]
  · simp [burstOutcome_of_pass h1, h1]

end

/-! ### The statement -/

/-- Settles O35: each command by the slot that waits for it; link ECC by the reads that fail. -/
theorem fillsReturn : Obligations.FillsReturn := by
  refine ⟨fun s slot t hslot hvotes hsafe => ?slots, fun d => ?ecc⟩
  case slots =>
    exact ⟨fun e hfuse => exec_frameReadDone_of_reading hslot hvotes hsafe hfuse e,
      fun img hwr => exec_frameWriteDone_of_writing hslot hvotes hsafe hwr,
      fun d hdram hissued => exec_dramReadReturn_of_issued hslot hvotes hsafe hdram hissued d,
      fun v hv => exec_dramWriteAck_of_issued hslot hv,
      fun d _ hdram => exec_dramReadReturn_of_not_reading hslot hdram d⟩
  case ecc =>
    obtain ⟨hpoisoned, hreread⟩ := burstOutcome_iff (d := d)
    refine ⟨hpoisoned, fun hb hu => ?_, burstOutcome_of_pass, hreread⟩
    have hpass : ¬ burstBad d.b1 d.u1 := by simp [burstBad, hb, hu]
    rw [burstOutcome_of_pass hpass, hb, hu]
    rfl

end Sys2Proof.Machine
end

section
/-! SUPPORT. Dispatch of a queue head (R78, R83, R92, R142, R143, R376), one lemma for each way that a head takes. -/
namespace Sys2Proof.Machine

theorem queueOf_mod (p : Nat) {tc : Nat} (h : tc < 8) : queueOf p tc % 8 = tc := by
  unfold queueOf
  omega

theorem State.running_of_admits {s : State} (h : s.admits = true) : s.power.boot = .run := by
  simp only [State.admits, Bool.and_eq_true, beq_iff_eq] at h
  obtain ⟨⟨hboot, -⟩, -⟩ := h
  exact hboot

section
variable {s : State} {q : Nat} {e : QEnt} {r : List QEnt} (hents : (s.queue q).ents = e :: r)
include hents

theorem State.popHead_eq : s.popHead q = s.setQueue q { s.queue q with ents := r } := by
  rw [State.popHead, hents, List.tail_cons]

/-! ### The kinds of heads -/

section
variable (hadmits : s.admits = true)
include hadmits

theorem State.dispatch_of_refused (hbad : e.busErr = true) :
    s.dispatch q = (s.popHead q).answer q e.id e.part (badRes stBusErr) := by
  simp [State.dispatch, hents, State.running_of_admits hadmits, hadmits, hbad]

section
variable (hgood : e.busErr = false)
include hgood

theorem State.dispatch_of_fence (hop : e.op = opFence) : s.dispatch q = s.dispatchFence q e := by
  simp [State.dispatch, hents, State.running_of_admits hadmits, hadmits, hgood, hop]

variable (hop : e.op ≠ opFence)
include hop

theorem State.dispatch_of_control (hregion : regionOf e.addr = .control) : s.dispatch q = s.dispatchCtl q e := by
  simp [State.dispatch, hents, State.running_of_admits hadmits, hadmits, hgood, hop, hregion]

theorem State.dispatch_of_device (hregion : regionOf e.addr = .device) : s.dispatch q = s.dispatchDev q e := by
  simp [State.dispatch, hents, State.running_of_admits hadmits, hadmits, hgood, hop, hregion]

section
variable (hregion : regionOf e.addr = .memory)
include hregion

theorem State.dispatch_of_forwarded {u : State} (hforward : s.tryForward q = some u) : s.dispatch q = u := by
  simp [State.dispatch, hents, State.running_of_admits hadmits, hadmits, hgood, hop, hregion, hforward]

theorem State.dispatch_of_memory (hforward : s.tryForward q = none) : s.dispatch q = s.dispatchMem q e := by
  simp [State.dispatch, hents, State.running_of_admits hadmits, hadmits, hgood, hop, hregion, hforward]

end

end

end

end

/-! ### What each kind comes to -/

section
variable {s : State} {q : Nat} {e : QEnt}

/-- The fence logic takes a FENCE while it is idle, no earlier FENCE holds the port back, and the port has room (R79). -/
theorem State.dispatchFence_of_idle (hidle : (s.port (q / 8)).fence = none) (hfree : (s.port (q / 8)).fenced e.id = false)
    (hroom : s.slotRoom (q / 8) = true) :
    s.dispatchFence q e = (s.popHead q).setPort (q / 8) { s.port (q / 8) with
      fence := some ⟨e.id, BitVec.ofNat 3 q, e.tag, e.priv⟩ } := by
  simp [State.dispatchFence, hidle, hfree, hroom]

theorem State.dispatchCtl_of_wins (hfree : (s.port (q / 8)).fenced e.id = false) (hroom : s.slotRoom (q / 8) = true)
    (hwins : s.wins 700 1024 s.controlCands (q / 8, q % 8) = true) :
    s.dispatchCtl q e = ((s.granted 700 1024 (q / 8)).popHead q).ctlRead (ctlOffset e.addr) (q, e.id, offOf e.addr) := by
  simp [State.dispatchCtl, hfree, hroom, hwins]

theorem State.dispatchDev_of_wins {l : Nat} (hpeer : e.peer = some l) (hfree : (s.port (q / 8)).fenced e.id = false)
    (hroom : s.slotRoom (q / 8) = true) (hwins : s.wins (600 + l) 1024 (s.targetCands l) (q / 8, q % 8) = true) :
    s.dispatchDev q e = (((s.granted (600 + l) 1024 (q / 8)).popHead q).passTarget l (q / 8) (q % 8) opRdOnce e.priv e.id
      e.addr e.size []).getD s := by
  simp [State.dispatchDev, hpeer, hfree, hroom, hwins]

theorem State.dispatchMem_of_wins (heligible : s.headEligible q e = true)
    (hread : s.wins (q / 512 * 8 + sliceOf (lineOf e.addr)) 512 (s.linkHeads (q / 512) (sliceOf (lineOf e.addr)))
      (q % 512, 0) = true)
    (hinlet : s.wins (200 + sliceOf (lineOf e.addr)) 16 (s.inletLinks (sliceOf (lineOf e.addr))) (q / 512, 0) = true) :
    s.dispatchMem q e = ((s.granted (q / 512 * 8 + sliceOf (lineOf e.addr)) 512 (q % 512)).granted
      (200 + sliceOf (lineOf e.addr)) 16 (q / 512)).sendFirst q e := by
  simp [State.dispatchMem, State.inlet, heligible, hread, hinlet]

end

/-- The command dispatches the head, and a push that waits for the queue takes the entry freed (R85). -/
theorem exec_queueDispatch {s u : State} {port : Fin 1024} {tc : Fin 8}
    (h : s.dispatch (queueOf port.val tc.val) = u) :
    exec (.queueDispatch port tc) s = .next (u.refilled s (queueOf port.val tc.val)).norm :=
  h ▸ rfl

/-! ### The statement -/

/-- Settles O28: the head's kind says where it goes, and the roundabouts that it wins let it. -/
theorem queueDispatched : Obligations.QueueDispatched := by
  intro s port tc e r q c hents hadmits
  have hport : q / 8 = port.val := queueOf_div port.val tc.isLt
  have htc : q % 8 = tc.val := queueOf_mod port.val tc.isLt
  have hpop := State.popHead_eq hents
  refine ⟨fun hbad => ?refused, fun hgood hop hidle hfree hroom => ?fence,
    fun hgood hop hregion hfree hroom hwins => ?control,
    fun hgood hop hregion hfree hroom l hpeer hwins => ?device, fun hgood hop hregion u hforward => ?forwarded,
    fun hgood hop hregion hforward heligible hread hinlet => ?memory⟩
  case refused =>
    exact exec_queueDispatch (hpop ▸ State.dispatch_of_refused hents hadmits hbad)
  case fence =>
    have hgo := State.dispatchFence_of_idle (q := q) (e := e) (hport ▸ hidle) (hport ▸ hfree) (hport ▸ hroom)
    rw [hport, hpop] at hgo
    exact exec_queueDispatch ((State.dispatch_of_fence hents hadmits hgood hop).trans hgo)
  case control =>
    have hgo := State.dispatchCtl_of_wins (q := q) (e := e) (hport ▸ hfree) (hport ▸ hroom) (by rw [hport, htc]; exact hwins)
    rw [hport] at hgo
    exact exec_queueDispatch ((State.dispatch_of_control hents hadmits hgood hop hregion).trans hgo)
  case device =>
    have hgo := State.dispatchDev_of_wins (q := q) hpeer (hport ▸ hfree) (hport ▸ hroom) (by rw [hport, htc]; exact hwins)
    rw [hport, htc] at hgo
    exact exec_queueDispatch ((State.dispatch_of_device hents hadmits hgood hop hregion).trans hgo)
  case forwarded =>
    exact exec_queueDispatch (State.dispatch_of_forwarded hents hadmits hgood hop hregion hforward)
  case memory =>
    exact exec_queueDispatch ((State.dispatch_of_memory hents hadmits hgood hop hregion hforward).trans
      (State.dispatchMem_of_wins heligible hread hinlet))

end Sys2Proof.Machine
end

section
/-! SUPPORT. Issue of a lay-by head (R83, R85, R86, R88, R89), one lemma for each destination. The head's codes show no error. -/
namespace Sys2Proof.Machine

/-- A grant moves a pointer and no register, so the votes that held before it hold after it (R335). -/
theorem State.granted_votesOk (s : State) (arb n i : Nat) (used : Nat → Bool) :
    (s.granted arb n i).votesOk ((s.granted arb n i).votedUsed used) = s.votesOk (s.votedUsed used) := rfl

@[simp] theorem State.granted_port (s : State) (arb n i p : Nat) : (s.granted arb n i).port p = s.port p := rfl

section
variable {s : State} {p : Nat} {e : LbEnt} (hclean : e.ecc = .clean)
include hclean

/-- An entry without an error is taken without an entry in the log. -/
theorem State.layTake_of_clean : s.layTake p e = s.setPort p ((s.port p).issueHead e) := by
  rw [State.layTake, State.layLog, hclean]

theorem State.issueCtl_of_wins (hwins : s.wins 700 1024 s.controlCands (p, e.tc.toNat) = true) :
    s.issueCtl p e = (((s.granted 700 1024 p).setPort p ((s.port p).issueHead e)).layRelease p e).ctlWrite (ctlOffset e.addr)
      (BitVec.ofNat 32 (lineNat e.data (offOf e.addr) 4)) := by
  simp [State.issueCtl, hwins, hclean, State.layTake_of_clean hclean]

theorem State.issueDev_of_wins {l : Nat} (hwins : s.wins (600 + l) 1024 (s.targetCands l) (p, e.tc.toNat) = true) :
    s.issueDev p l e = (((s.granted (600 + l) 1024 p).setPort p ((s.port p).issueHead e)).passTarget l p e.tc.toNat e.op
      e.priv e.id e.addr e.size e.slots).getD s := by
  simp [State.issueDev, hwins, hclean, State.layTake_of_clean hclean]

/-- A WR_FULL or WR_PTL that wins its link drain arbiter and the slice's write inlet, and finds a slot. -/
theorem State.issueMem_of_wins (hop : e.op = opWrFull ∨ e.op = opWrPtl) (heligible : s.layEligible p e = true)
    (hvotes : s.votesOk (s.votedUsed usesHome) = true) (hsafe : s.saf.safe ≠ .stop) {l slice : Nat} (hl : p / 64 = l)
    (hslice : sliceOf e.line = slice)
    (hdrain : s.wins (300 + l * 8 + slice) 64 (s.drainCands l slice) (p % 64, 0) = true)
    (hinlet : s.wins (500 + slice) 16 (s.drainLinks slice) (l, 0) = true) {r : Nat × State}
    (hslot : (((s.granted (300 + l * 8 + slice) 64 (p % 64)).granted (500 + slice) 16 l).setPort p
      ((s.port p).issueHead e)).takeSlot slice .write = some r) :
    s.issueMem p e = (r.2.register r.1 (laySlot p e)).settle := by
  have hcond : (e.op == opWrCond) = false := by rcases hop with hop | hop <;> rw [hop] <;> rfl
  have hwb : (e.op == opWbFull) = false := by rcases hop with hop | hop <;> rw [hop] <;> rfl
  subst hl hslice
  generalize hg : (s.granted (300 + p / 64 * 8 + sliceOf e.line) 64 (p % 64)).granted (500 + sliceOf e.line) 16 (p / 64) = g
    at hslot
  have hguard : g.guardVotes usesHome = g := g.guardVotes_of_votesOk (hg ▸ hvotes)
  have hrun : (g.saf.safe == .stop) = false := beq_eq_false_iff_ne.2 (hg ▸ hsafe)
  have htake : g.layTake p e = g.setPort p ((s.port p).issueHead e) := by
    rw [State.layTake_of_clean hclean, ← hg, State.granted_port, State.granted_port]
  simp [State.issueMem, heligible, hdrain, hinlet, hg, hguard, hrun, htake, hcond, hwb, hslot]

end

section
variable {s u : State} {port : Fin 1024} {e : LbEnt}

theorem State.layIssue_of_head (hlive : s.live = true) (hhead : s.layHead port.val = some e) :
    (e.dest = .mem → s.layIssue port.val = s.issueMem port.val e) ∧
      (∀ l, e.dest = .peer l → s.layIssue port.val = s.issueDev port.val l e) ∧
      (e.dest = .control → s.layIssue port.val = s.issueCtl port.val e) := by
  refine ⟨fun hdest => ?_, fun l hdest => ?_, fun hdest => ?_⟩
  all_goals simp [State.layIssue, hlive, hhead, hdest]

/-- The command issues the head, and each queue of the port that is shorter takes the push that waits for it (R85). -/
theorem exec_laybyIssue (h : s.layIssue port.val = u) :
    exec (.laybyIssue port) s =
      .next (forEach (fun tc t => t.refilled s (queueOf port.val tc)) (List.range 8) u).norm :=
  h ▸ rfl

end

/-! ### The statement -/

/-- Settles O29: the head's destination says where it goes, and the roundabouts that it wins let it. -/
theorem laybyIssued : Obligations.LaybyIssued := by
  intro s port e p fill hlive hhead hclean
  obtain ⟨hmem, hpeer, hcontrol⟩ := State.layIssue_of_head hlive hhead
  exact ⟨fun hdest hwins => exec_laybyIssue ((hcontrol hdest).trans (State.issueCtl_of_wins hclean hwins)),
    fun l hdest hwins => exec_laybyIssue ((hpeer l hdest).trans (State.issueDev_of_wins hclean hwins)),
    fun hdest hop heligible hvotes hsafe hdrain hinlet r hslot => exec_laybyIssue ((hmem hdest).trans
      (State.issueMem_of_wins hclean hop heligible hvotes hsafe rfl rfl hdrain hinlet hslot))⟩

end Sys2Proof.Machine
end

section
/-! SUPPORT. What counting an occurrence does to the registers below the management block and to the links (R322, R343, R348), for
tables in any form: it sets status bits at 0xA0000 and above, and sends INTR messages. An INTR message answers no request, so
every link keeps the tags that its partner has in use (R54). -/
namespace Sys2Proof.Machine

/-! ### Sending a message that answers nothing -/

/-- Links `j` and `k` are the same but for what sending changes, and the same tags are in use. -/
def Link.sameTags (j k : Link) : Prop := j.core = k.core ∧ j.reqTags = k.reqTags ∧ j.wbOpen = k.wbOpen

section
variable {i j k : Link}

theorem Link.sameTags.refl (k : Link) : k.sameTags k := ⟨rfl, rfl, rfl⟩

theorem Link.sameTags.trans (h : i.sameTags j) (h' : j.sameTags k) : i.sameTags k := by
  obtain ⟨hcore, htags, hopen⟩ := h
  obtain ⟨hcore', htags', hopen'⟩ := h'
  exact ⟨hcore.trans hcore', htags.trans htags', hopen.trans hopen'⟩

end

theorem Link.send_sameTags (k : Link) (half : Bool) {m : Msg} (hm : ∀ tag, m.answers tag = false) :
    (k.send half m).sameTags k := by
  refine ⟨rfl, ?_, ?_⟩
  · simp [Link.send, hm]
  · simp [Link.send, hm]

theorem ctlHdr_opcode (op stream : Nat) (d : Word) (hop : op < 64) :
    ((ctlHdr op stream d).extractLsb' 3 6).toNat = op := by
  have hd := d.isLt
  rw [ctlHdr, BitVec.extractLsb'_toNat, BitVec.toNat_ofNat, Nat.shiftRight_eq_div_pow]
  omega

/-- An INTR message answers no request. -/
theorem intr_answers (stream : Nat) (d : Word) (tag : Nat) : (⟨ctlHdr 0x38 stream d, []⟩ : Msg).answers tag = false := by
  have hop : ((ctlHdr 0x38 stream d).extractLsb' 3 6).toNat = 0x38 := ctlHdr_opcode 0x38 stream d (by decide)
  simp only [Msg.answers, Msg.opcode, hop]
  rfl

section
variable (s : State)

theorem State.setLink_sameTags {l : Nat} {v : Link} (hv : v.state ≠ .detect) (h : v.sameTags (s.link l)) (j : Nat) :
    ((s.setLink l v).link j).sameTags (s.link j) := by
  by_cases hj : j = l
  · rw [hj, s.link_setLink_same hv]
    exact h
  · rw [s.link_setLink_other hj]
    exact .refl _

@[simp] theorem State.setHalf_link (l : Nat) (b : Bool) (j : Nat) : (s.setHalf l b).link j = s.link j := rfl

theorem State.wakeLink_sameTags {l : Nat} (h : (s.link l).state ≠ .detect) (j : Nat) :
    ((s.wakeLink l).link j).sameTags (s.link j) := by
  unfold State.wakeLink
  dsimp only
  split
  · have hwaking : ({ s.link l with waking := true } : Link).sameTags (s.wake.link l) := by
      rw [s.wake_link]
      exact ⟨rfl, rfl, rfl⟩
    rw [State.emit_link, ← s.wake_link j]
    exact State.setLink_sameTags s.wake (v := { s.link l with waking := true }) h hwaking j
  · exact .refl _

theorem State.sendRaw_sameTags {l : Nat} (h : (s.link l).state ≠ .detect) {m : Msg} (hm : ∀ tag, m.answers tag = false)
    (j : Nat) : ((s.sendRaw l m).2.link j).sameTags (s.link j) := by
  unfold State.sendRaw
  dsimp only
  split
  · have hsend := s.setLink_sameTags (v := (s.link l).send (s.txHalf.contains l) m) h ((s.link l).send_sameTags _ hm) j
    simpa only [State.emit_link, State.setHalf_link] using hsend
  · have hwait : ({ s.link l with txWait := (s.link l).txWait ++ [m] } : Link).state ≠ .detect := h
    refine (State.wakeLink_sameTags _ ?_ j).trans (s.setLink_sameTags hwait ⟨rfl, rfl, rfl⟩ j)
    rw [s.link_setLink_same hwait]
    exact hwait

theorem State.wake_csr : s.wake.csr = s.csr := by
  unfold State.wake
  split <;> rfl

theorem State.sendRaw_csr (l : Nat) (m : Msg) : (s.sendRaw l m).2.csr = s.csr := by
  unfold State.sendRaw State.wakeLink
  dsimp only
  split
  · rw [State.emit_csr, State.setHalf_csr, State.setLink_csr]
  · split
    · rw [State.emit_csr, State.setLink_csr, State.wake_csr, State.setLink_csr]
    · rw [State.setLink_csr]

end

/-! ### The steps of counting -/

/-- `t` follows from `s` by elementary steps of counting: a status bit set at 0xA0000 or above, a change of neither registers
nor links, or a message sent that answers nothing. -/
inductive Counted : State → State → Prop
  | refl (s : State) : Counted s s
  | trans {s t u : State} : Counted s t → Counted t u → Counted s u
  | setBit (s : State) {o : Nat} (h : 0xA0000 ≤ o) (n : Nat) : Counted s (s.setBit o n)
  | other {s t : State} (hcsr : t.csr = s.csr) (hlinks : t.links = s.links) : Counted s t
  | intr (s : State) {l : Nat} (hlink : (s.link l).state ≠ .detect) {m : Msg} (hm : ∀ tag, m.answers tag = false) :
    Counted s (s.sendRaw l m).2

section
variable {s t u : State} (h : Counted s t)
include h

theorem Counted.sameTags (j : Nat) : (t.link j).sameTags (s.link j) := by
  induction h with
  | refl | setBit => exact .refl _
  | trans _ _ ih ih' => exact ih'.trans ih
  | other _ hlinks =>
    simp only [State.link, hlinks]
    exact .refl _
  | intr u hlink hm => exact u.sendRaw_sameTags hlink hm j

/-- Registers below the management block are as they were. -/
theorem Counted.fld {o : Nat} (ho : o < 0xA0000) (lo width : Nat) : t.fld o lo width = s.fld o lo width := by
  have hreg : t.reg3 o = s.reg3 o := by
    induction h with
    | refl => rfl
    | trans _ _ ih ih' => exact ih'.trans ih
    | setBit u hbit => exact tget_tset_of_ne csrInit u.csr (by omega) _
    | other hcsr => simp only [State.reg3, hcsr]
    | intr u => simp only [State.reg3, u.sendRaw_csr]
  simp only [State.fld, State.reg, hreg]

/-- Counting that starts beside a change of neither registers nor links. -/
theorem Counted.since (hcsr : s.csr = u.csr) (hlinks : s.links = u.links) : Counted u t := .trans (.other hcsr hlinks) h

end

/-! ### Counting is made of such steps -/

section
variable (s : State)

theorem Counted.pushLog (e : LogEnt) : Counted s (s.pushLog e) := by
  unfold State.pushLog
  repeat' split
  · exact .other rfl rfl
  · exact .other rfl rfl
  · exact (Counted.setBit _ (o := rSafErr) (by decide) _).since rfl rfl

theorem Counted.driveAlert : Counted s s.driveAlert := by
  unfold State.driveAlert
  dsimp only
  split
  · exact .refl s
  · exact .other rfl rfl

section
variable {rise : State → State} (hrise : ∀ u, Counted u (rise u))
include hrise

theorem Counted.pushEvtBy (e : LogEnt) : Counted s (s.pushEvtBy rise e) := by
  unfold State.pushEvtBy
  dsimp only
  repeat' split
  · exact (hrise _).since rfl rfl
  · exact .other rfl rfl
  · exact .setBit s (o := rEvtStatus) (by decide) _

theorem Counted.ovfLogBy (n : Nat) : Counted s (s.ovfLogBy rise n) :=
  (Counted.pushLog s _).trans (Counted.pushEvtBy _ hrise _)

end

section
variable {note : Nat → State → State} (hnote : ∀ n u, Counted u (note n u))
include hnote

theorem Counted.bumpBy (n k : Nat) : Counted s (s.bumpBy note n k) := by
  have ho : 0xA0000 ≤ if n < 32 then rCntOvfLo else rCntOvfHi := by split <;> decide
  unfold State.bumpBy
  dsimp only
  generalize (if n < 32 then rCntOvfLo else rCntOvfHi) = o at ho ⊢
  repeat' split
  · exact .other rfl rfl
  · exact .other rfl rfl
  · exact ((Counted.setBit _ ho _).trans (hnote _ _)).since rfl rfl
  · exact (Counted.setBit _ ho _).since rfl rfl

theorem Counted.countFlits (l k : Nat) : Counted s (s.countFlits note l k) := by
  unfold State.countFlits
  split
  · exact .refl s
  · next hon =>
    clear hon
    generalize cntListed s = ns
    induction ns generalizing s with
    | nil => exact .refl s
    | cons n ns ih =>
      rw [List.foldl_cons]
      refine .trans ?_ (ih _)
      split
      · exact Counted.bumpBy s hnote n k
      · exact .refl s

theorem Counted.sendIntrBy (src sub : Nat) : Counted s (s.sendIntrBy note src sub) := by
  unfold State.sendIntrBy
  dsimp only
  split
  · next h =>
    have hlink : (s.link (s.fld rIntrRoute 0 10 / 64)).state ≠ .detect := by
      intro hd
      simp [hd, LinkState.asleep] at h
    exact (Counted.intr s hlink (intr_answers _ _)).trans (Counted.countFlits _ hnote _ _)
  · exact .refl s

theorem Counted.raiseBy (src sub : Nat) : Counted s (s.raiseBy note src sub) := by
  have hintr (u : State) : Counted u (if u.bit rIntrMask src then u.sendIntrBy note src sub else u) := by
    split
    · exact Counted.sendIntrBy u hnote src sub
    · exact .refl u
  have hibi (u : State) : Counted u (if u.bit rIntrMask (20 + src) && u.mgt.i3c.canIbi then u.emit u.intrIbi else u) := by
    split
    · exact .other rfl rfl
    · exact .refl u
  unfold State.raiseBy
  split
  · exact .refl s
  · have hpend := Counted.setBit s (o := rIntrPend) (by decide) src
    exact ((hpend.trans (hintr _)).trans (hibi _)).trans (Counted.driveAlert _)

end

theorem Counted.ovfLog (n : Nat) : Counted s (State.ovfLog n s) :=
  Counted.ovfLogBy s (fun u => Counted.raiseBy u (fun m v => Counted.ovfLogBy v (fun w => .refl w) m) 1 0) n

theorem Counted.countIn (code : Nat) (a : Attr) (k : Nat) (ns : List Nat) : Counted s (countIn code a k ns s) := by
  induction ns generalizing s with
  | nil => exact .refl s
  | cons n ns ih =>
    rw [Machine.countIn]
    refine .trans ?_ (ih _)
    split
    · exact Counted.bumpBy s (fun m u => Counted.ovfLog u m) n k
    · exact .refl s

/-- The count of an occurrence (R343) is made of such steps. -/
theorem Counted.count (code : Nat) (a : Attr) (k : Nat) : Counted s (s.count code a k) := by
  unfold State.count
  dsimp only
  split
  · exact .other rfl rfl
  · exact (Counted.countIn _ _ _ _ _).since rfl rfl

end

end Sys2Proof.Machine
end

section
/-! SUPPORT. How the parts of a request join their queue or their lay-by (R77, R78, R86, R140), and how the request leaves the
receive buffer, with what each leaves as it was. -/
namespace Sys2Proof.Machine

/-! ### Sums over a table -/

/-- The sum of a measure over the entries of a table. -/
def tblSum {α : Type} (f : α → Nat) : Tbl α → Nat
  | [] => 0
  | e :: r => f e.2 + tblSum f r

section
variable {α : Type} (f : α → Nat)

theorem foldl_add_eq_tblSum (t : Tbl α) (n : Nat) : t.foldl (fun n e => n + f e.2) n = n + tblSum f t := by
  induction t generalizing n with
  | nil => rfl
  | cons e r ih => rw [List.foldl_cons, ih, tblSum, Nat.add_assoc]

variable {d : Nat → α} (hd : ∀ k, f (d k) = 0) (k : Nat) (v : α)
include hd

theorem tblSum_tdel (t : Tbl α) : tblSum f (tdel k t) + f (tget d t k) = tblSum f t := by
  induction t with
  | nil => simp [tdel, tblSum, hd]
  | cons e r ih =>
    obtain ⟨m, w⟩ := e
    by_cases hm : m = k
    · simp only [tdel, tget_cons, tblSum, if_pos hm]
      exact Nat.add_comm _ _
    · simp only [tdel, tget_cons, tblSum, if_neg hm]
      omega

theorem tblSum_tput {t : Tbl α} (ht : trising t = true) : tblSum f (tput k v t) + f (tget d t k) = tblSum f t + f v := by
  induction t with
  | nil => simp [tput, tblSum, hd]
  | cons e r ih =>
    obtain ⟨m, w⟩ := e
    obtain ⟨habove, hr⟩ := (trising_cons m w r).1 ht
    rcases Nat.lt_trichotomy k m with hlt | rfl | hgt
    · have hfresh : tget d ((m, w) :: r) k = d k := by
        refine tget_above d _ k (fun x hx => ?_)
        rcases List.mem_cons.1 hx with rfl | hx
        · exact hlt
        · exact hlt.trans (habove x hx)
      rw [hfresh, hd]
      simp only [tput, if_pos hlt, tblSum]
      omega
    · simp only [tput, lt_irrefl, if_false, if_true, tget_cons, tblSum]
      omega
    · have := ih hr
      simp only [tput, if_neg (Nat.lt_asymm hgt), if_neg (Nat.ne_of_gt hgt), if_neg (Nat.ne_of_lt hgt), tget_cons, tblSum]
      omega

/-- A write adds the measure of what it writes and takes away that of what was there. -/
theorem tblSum_tset [DecidableEq α] {t : Tbl α} (ht : trising t = true) :
    tblSum f (tset d t k v) + f (tget d t k) = tblSum f t + f v := by
  unfold tset
  split
  · next hv =>
    rw [hv, hd]
    exact tblSum_tdel f hd k t
  · exact tblSum_tput f hd k v ht

end

/-! ### The queues and the lay-bys change, and occurrences are counted -/

/-- `t` follows from `s` by changes of the queues and the ports, and by counting. -/
structure Entered (s t : State) : Prop where
  reported : Reported { s with queues := t.queues, ports := t.ports } t
  counted : Counted s t

/-- Reporting does not look at the queues and the ports. -/
theorem Reported.withQueuesPorts {s t : State} (h : Reported s t) (qs : Tbl Queue) (ps : Tbl Port) :
    Reported { s with queues := qs, ports := ps } { t with queues := qs, ports := ps } :=
  ⟨congrArg (fun u => { u with queues := qs, ports := ps }) h.core, h.wf, h.link⟩

theorem Entered.refl (s : State) : Entered s s := ⟨.refl s, .refl s⟩

section
variable {s t u : State}

theorem Entered.trans (h : Entered s t) (k : Entered t u) : Entered s u :=
  ⟨(h.reported.withQueuesPorts u.queues u.ports).trans k.reported, h.counted.trans k.counted⟩

theorem Entered.setQueue (s : State) (q : Nat) (v : Queue) : Entered s (s.setQueue q v) :=
  ⟨.refl _, .other rfl rfl⟩

theorem Entered.setPort (s : State) (p : Nat) (v : Port) : Entered s (s.setPort p v) :=
  ⟨.refl _, .other rfl rfl⟩

theorem Entered.home (h : Entered s t) : t.home = s.home := h.reported.home
theorem Entered.mem (h : Entered s t) : t.mem = s.mem := h.reported.mem
theorem Entered.cry (h : Entered s t) : t.cry = s.cry := h.reported.cry
theorem Entered.frames (h : Entered s t) : t.sto.frames = s.sto.frames := h.reported.frames
theorem Entered.arrival (h : Entered s t) : t.arrival = s.arrival := h.reported.arrival
theorem Entered.pending (h : Entered s t) : t.pending = s.pending := h.reported.pending

theorem Entered.count (s : State) (code : Nat) (a : Attr) (k : Nat) : Entered s (s.count code a k) := by
  have h := Reported.count s code a k
  refine ⟨?_, Counted.count s code a k⟩
  rw [h.queues, h.ports]
  exact h

end

/-! ### One part joins its queue -/

theorem State.queue_setQueue_of_ne_init (s : State) {q : Nat} {v : Queue} (hv : v ≠ .init) (j : Nat) :
    (s.setQueue q v).queue j = if j = q then v else s.queue j := by
  split
  · next hj => rw [hj]; exact tget_tset_of_ne_default queueDef s.queues hv
  · next hj => exact tget_tset_of_ne queueDef s.queues hj v

section
variable (s : State) (q : Nat)

theorem Entered.pushEnt (e : QEnt) : Entered s (s.pushEnt q e) := (Entered.setQueue s q _).trans (Entered.count _ _ _ _)

theorem Entered.pushAns (a : Ans) : Entered s (s.pushAns q a) := Entered.setQueue s q _

theorem State.pushEnt_queue (e : QEnt) (j : Nat) :
    (s.pushEnt q e).queue j = if j = q then { s.queue q with ents := (s.queue q).ents ++ [e] } else s.queue j := by
  rw [State.queue_congr (Reported.pushEnt q e).queues]
  refine s.queue_setQueue_of_ne_init (fun h => ?_) j
  simpa [Queue.init] using congrArg Queue.ents h

theorem State.pushAns_queue (a : Ans) (j : Nat) :
    (s.pushAns q a).queue j = if j = q then { s.queue q with answers := (s.queue q).answers ++ [a] } else s.queue j := by
  refine s.queue_setQueue_of_ne_init (fun h => ?_) j
  simpa [Queue.init] using congrArg Queue.answers h

/-- An entry and its answer join a queue, in any table of queues. -/
theorem State.queued_queue_of_any (e : QEnt) (a : Ans) (j : Nat) :
    (s.queued q e a).queue j =
      if j = q then ⟨(s.queue q).ents ++ [e], (s.queue q).answers ++ [a]⟩ else s.queue j := by
  rw [State.queued, State.pushAns_queue, State.pushEnt_queue, State.pushEnt_queue, if_pos rfl]
  split <;> rfl

end

/-! ### Room for the parts (R78, R79) -/

/-- Entries of a queue that stand in the shared pool. -/
def Queue.shared (u : Queue) : Nat := (u.ents.filter (fun e => !e.reserved)).length

theorem State.sharedHeld_eq_tblSum (s : State) : s.sharedHeld = tblSum Queue.shared s.queues :=
  (foldl_add_eq_tblSum Queue.shared s.queues 0).trans (Nat.zero_add _)

theorem length_flatten_map_le {f g : Nat → List QEnt} {k : Nat} (hother : ∀ j, j ≠ k → g j = f j)
    (hgrown : (g k).length = (f k).length + 1) {js : List Nat} (hnodup : js.Nodup) :
    (js.map g).flatten.length ≤ (js.map f).flatten.length + 1 := by
  induction js with
  | nil => exact Nat.zero_le _
  | cons j js ih =>
    obtain ⟨hj, hjs⟩ := List.nodup_cons.1 hnodup
    simp only [List.map_cons, List.flatten_cons, List.length_append]
    by_cases hjk : j = k
    · have hrest : js.map g = js.map f := List.map_congr_left (fun i hi => hother i (fun h => hj (hjk ▸ h ▸ hi)))
      rw [hrest, hjk, hgrown]
      omega
    · rw [hother j hjk]
      have := ih hjs
      omega

section
variable {s : State} {p tc : Nat} (e : QEnt) (hwf : twf queueDef s.queues = true)

section
include hwf

theorem State.twf_pushEnt (q : Nat) : twf queueDef (s.pushEnt q e).queues = true := by
  rw [(Reported.pushEnt (s := s) q e).queues]
  exact twf_tset queueDef s.queues q _ hwf

theorem State.pushEnt_sharedHeld (q : Nat) : (s.pushEnt q e).sharedHeld ≤ s.sharedHeld + 1 := by
  have hgrown : Queue.shared { s.queue q with ents := (s.queue q).ents ++ [e] } ≤ (s.queue q).shared + 1 := by
    simp only [Queue.shared, List.filter_append, List.length_append]
    have := List.length_filter_le (fun e : QEnt => !e.reserved) [e]
    exact Nat.add_le_add_left this _
  have hsum := tblSum_tset Queue.shared (d := queueDef) (fun _ => rfl) q
    { s.queue q with ents := (s.queue q).ents ++ [e] } ((twf_iff queueDef s.queues).1 hwf).1
  rw [State.sharedHeld_eq_tblSum, State.sharedHeld_eq_tblSum, (Reported.pushEnt (s := s) q e).queues]
  simp only [State.setQueue]
  simp only [State.queue] at hgrown hsum ⊢
  omega

end

theorem State.pushEnt_portEnts : ((s.pushEnt (queueOf p tc) e).portEnts p).length ≤ (s.portEnts p).length + 1 := by
  refine length_flatten_map_le (k := tc) (fun j hj => ?_) ?_ List.nodup_range
  · have hne : queueOf p j ≠ queueOf p tc := by
      unfold queueOf
      omega
    rw [State.pushEnt_queue, if_neg hne]
  · rw [State.pushEnt_queue, if_pos rfl]
    exact List.length_append

include hwf in
/-- A push takes one entry of its port's room. -/
theorem State.pushEnt_poolRoom (hp : p < 1024) {n : Nat} (hroom : s.poolRoom p (n + 1) = true) :
    (s.pushEnt (queueOf p tc) e).poolRoom p n = true := by
  have hmax : (s.pushEnt (queueOf p tc) e).poolMax p = s.poolMax p := by
    have ho : rPrtBudget p < 0xA0000 := by
      unfold rPrtBudget
      omega
    simp only [State.poolMax, (Entered.pushEnt s (queueOf p tc) e).counted.fld ho]
  obtain ⟨hport, hshared⟩ := State.poolRoom_iff.1 hroom
  have hport' := State.pushEnt_portEnts (s := s) (p := p) (tc := tc) e
  have hshared' := State.pushEnt_sharedHeld e hwf (queueOf p tc)
  exact State.poolRoom_iff.2 ⟨by omega, by omega⟩

end

/-! ### All parts join their queue (R77, R140) -/

/-- The entry apart from the pool that it stands in. -/
def QEnt.unreserved (e : QEnt) : QEnt := { e with reserved := false }

theorem State.poolRoom_mono {s : State} {p m n : Nat} (h : m ≤ n) (hroom : s.poolRoom p n = true) :
    s.poolRoom p m = true := by
  obtain ⟨hport, hshared⟩ := State.poolRoom_iff.1 hroom
  exact State.poolRoom_iff.2 ⟨by omega, by omega⟩

theorem pushParts_cons_of_room {s : State} {p tc : Nat} (hroom : s.poolRoom p 1 = true) (e : QEnt) (r : List QEnt) :
    ∃ e', e'.unreserved = e.unreserved ∧ pushParts p tc (e :: r) s = pushParts p tc r (s.pushEnt (queueOf p tc) e') := by
  rcases State.poolGet_of_room (tc := tc) hroom with hget | hget
  · exact ⟨{ e with reserved := true }, rfl, by simp only [pushParts, hget]⟩
  · exact ⟨e, rfl, by simp only [pushParts, hget]⟩

/-- With room for all of them, every part joins the queue in turn. -/
theorem pushParts_of_room {p tc : Nat} (hp : p < 1024) {es : List QEnt} {s : State} (hwf : twf queueDef s.queues = true)
    (hroom : s.poolRoom p es.length = true) :
    ∃ es' t, pushParts p tc es s = (.shared, t) ∧ es'.map QEnt.unreserved = es.map QEnt.unreserved ∧ Entered s t ∧
      t.ports = s.ports ∧ ∀ j, t.queue j =
        if j = queueOf p tc then { s.queue (queueOf p tc) with ents := (s.queue (queueOf p tc)).ents ++ es' }
        else s.queue j := by
  induction es generalizing s with
  | nil =>
    refine ⟨[], s, rfl, rfl, .refl s, rfl, fun j => ?_⟩
    split
    · next hj => rw [hj, List.append_nil]
    · rfl
  | cons e r ih =>
    obtain ⟨e', he', hpush⟩ := pushParts_cons_of_room (tc := tc) (State.poolRoom_mono (Nat.le_add_left 1 r.length) hroom) e r
    obtain ⟨es', t, hrest, hes', hent, hports, hqueue⟩ :=
      ih (State.twf_pushEnt e' hwf _) (State.pushEnt_poolRoom e' hwf hp hroom)
    refine ⟨e' :: es', t, hpush.trans hrest, ?_, (Entered.pushEnt s _ e').trans hent,
      hports.trans (Reported.pushEnt (s := s) _ e').ports, fun j => ?_⟩
    · rw [List.map_cons, List.map_cons, he', hes']
    · rw [hqueue, State.pushEnt_queue, State.pushEnt_queue, if_pos rfl]
      split
      · simp
      · rfl

/-! ### The parts of a write join the lay-by (R86, R87, R140) -/

section
variable {s : State} {p : Nat}

/-- The port after entries have joined its lay-by. -/
def Port.accept (u : Port) (es : List LbEnt) : Port :=
  { u with layby := u.layby ++ es, accepted := u.accepted + es.length }

theorem State.layAccept_of_not_mergeable {e : LbEnt} (h : (s.port p).mergeable e = false) :
    s.layAccept p e = (s.setPort p ((s.port p).accept [e])).count 0x0B (e.attr p) := by
  simp [State.layAccept, h, Port.accept]

/-- A write of another line than the youngest entry's is not merged. -/
theorem Port.mergeable_of_line_ne {u : Port} {y e : LbEnt} (hlast : u.layby.getLast? = some y) (h : y.line ≠ e.line) :
    u.mergeable e = false := by
  simp [Port.mergeable, hlast, h]

/-- Entries of different lines, the first of which does not merge, all become entries of their own. -/
theorem State.forEach_layAccept {es : List LbEnt} (hfirst : ∀ e, es.head? = some e → (s.port p).mergeable e = false)
    (hlines : es.IsChain (fun a b => a.line ≠ b.line)) :
    let t := forEach (fun e s => s.layAccept p e) es s
    Entered s t ∧ Reports s t ∧ t.queues = s.queues ∧
      ∀ j, t.port j = if j = p then (s.port p).accept es else s.port j := by
  induction es generalizing s with
  | nil =>
    refine ⟨.refl s, .refl s, rfl, fun j => ?_⟩
    split
    · next hj => rw [hj]; simp [Port.accept, forEach]
    · rfl
  | cons e r ih =>
    obtain ⟨u, hu⟩ : ∃ u, u = s.layAccept p e := ⟨_, rfl⟩
    have hnew := State.layAccept_of_not_mergeable (hfirst e rfl)
    rw [← hu] at hnew
    have hrep := Reported.count (s.setPort p ((s.port p).accept [e])) 0x0B (e.attr p) 1
    have hport (j : Nat) : u.port j = if j = p then (s.port p).accept [e] else s.port j := by
      rw [hnew, State.port_congr hrep.ports]
      split
      · next hj =>
        have hne : (s.port p).accept [e] ≠ .init := fun h => by
          simpa [Port.accept, Port.init] using congrArg Port.layby h
        rw [hj]
        exact tget_tset_of_ne_default portDef s.ports hne
      · next hj => exact tget_tset_of_ne portDef s.ports hj _
    have hnext (e' : LbEnt) (he' : r.head? = some e') : (u.port p).mergeable e' = false := by
      refine Port.mergeable_of_line_ne (y := e) (by simp [hport, Port.accept]) ?_
      obtain ⟨r', rfl⟩ := List.head?_eq_some_iff.1 he'
      exact (List.isChain_cons_cons.1 hlines).1
    obtain ⟨hent, hreps, hqueues, hports⟩ := ih hnext hlines.tail
    have hstep : Entered s u := hnew ▸ (Entered.setPort s p _).trans (Entered.count _ _ _ _)
    have hstep' : Reports s u := hnew ▸ (Reports.count _ _ _ _).since rfl rfl rfl
    rw [forEach, ← hu]
    refine ⟨hstep.trans hent, hstep'.trans hreps, hqueues.trans (hnew ▸ hrep.queues), fun j => ?_⟩
    rw [hports, hport, hport, if_pos rfl]
    split
    · simp [Port.accept, Nat.add_assoc, Nat.add_comm]
    · rfl

end

/-! ### The request leaves the receive buffer (R49, R51) -/

/-- A link that is not as a reset leaves it: it is past DETECT, or has the caching role. -/
def Link.used (k : Link) : Prop := k.state ≠ .detect ∨ k.roleCaching = true

theorem Link.ne_init_of_used {k : Link} (h : k.used) : k ≠ .init := by
  rintro rfl
  rcases h with h | h
  · exact h rfl
  · exact Bool.false_ne_true h

theorem Link.used_of_core {j k : Link} (hcore : j.core = k.core) (h : k.used) : j.used := by
  have hstate : j.core.state = k.core.state := congrArg Link.state hcore
  have hrole : j.core.roleCaching = k.core.roleCaching := congrArg Link.roleCaching hcore
  change j.core.state ≠ .detect ∨ j.core.roleCaching = true
  rw [hstate, hrole]
  exact h

/-- The link with other counts of its receive buffer: the slots held, freed, and returned. -/
def Link.withRx (k : Link) (x : Tolls × Tolls × Tolls) : Link := { k with rxHeld := x.1, rxFreed := x.2.1, rxRet := x.2.2 }

/-- The link after `n` slots of class `c` of its receive buffer are freed. -/
def Link.slotsFreed (k : Link) (c n : Nat) : Link :=
  { k with rxHeld := k.rxHeld.upd c (fun m => m - n), rxFreed := k.rxFreed.upd c (fun m => m + n) }

/-- The link after it has returned what was freed. -/
def Link.tollSent (k : Link) : Link :=
  { k with rxRet := classes5.foldl (fun t c => t.upd c (fun n => (n + k.rxFreed.get c) % 4096)) k.rxRet, rxFreed := .zero }

/-- The link without a request that it held. -/
def Link.dropHeld (k : Link) (id : Nat) : Link := { k with held := k.held.filter (fun x => x.id != id) }

section
variable (s : State) (l : Nat)

theorem State.sendToll_core : (s.sendToll l).core = s.core := by
  rw [State.sendToll, State.linkOut, State.core_emit, State.core_setLink]

theorem State.freeSlots_core (c n : Nat) : (s.freeSlots l c n).core = s.core := by
  unfold State.freeSlots
  dsimp only
  split
  · rw [State.sendToll_core, State.core_setLink]
  · rw [State.core_setLink]

theorem State.link_setLink_of_used {v : Link} (h : v.used) : (s.setLink l v).link l = v :=
  s.link_setLink_of_ne_init (Link.ne_init_of_used h)

theorem State.sendToll_link (h : (s.link l).used) : ((s.sendToll l).link l) = (s.link l).tollSent := by
  rw [State.sendToll, State.linkOut_link]
  exact s.link_setLink_of_used l (v := (s.link l).tollSent) h

theorem State.freeSlots_eq (c n : Nat) :
    s.freeSlots l c n =
      if (s.link l).state == .active && decide (16 ≤ ((s.link l).slotsFreed c n).rxFreed.get c) then
        (s.setLink l ((s.link l).slotsFreed c n)).sendToll l
      else s.setLink l ((s.link l).slotsFreed c n) := rfl

/-- Of its own link, what is freed changes only what the receive buffer counts. -/
theorem State.freeSlots_link (h : (s.link l).used) (c n : Nat) :
    ∃ x, (s.freeSlots l c n).link l = (s.link l).withRx x := by
  have hread := s.link_setLink_of_used l (v := (s.link l).slotsFreed c n) h
  rw [State.freeSlots_eq]
  split
  · rw [State.sendToll_link _ l (by rw [hread]; exact h), hread]
    exact ⟨⟨_, _, _⟩, rfl⟩
  · rw [hread]
    exact ⟨⟨_, _, _⟩, rfl⟩

variable {e : HeldReq} (hcrossed : e.crossed = false)
include hcrossed

theorem State.moved_core : (s.moved l e).core = s.core := by
  rw [s.moved_of_not_crossed l hcrossed]
  dsimp only
  split
  · rw [State.freeSlots_core, State.core_setLink]
  · rfl

theorem State.moved_arrival : (s.moved l e).arrival = s.arrival := by
  show (s.moved l e).core.arrival = s.core.arrival
  rw [s.moved_core l hcrossed]
theorem State.moved_pending : (s.moved l e).pending = s.pending := by
  show (s.moved l e).core.pending = s.core.pending
  rw [s.moved_core l hcrossed]
theorem State.moved_frames : (s.moved l e).sto.frames = s.sto.frames := by
  show (s.moved l e).core.sto.frames = s.core.sto.frames
  rw [s.moved_core l hcrossed]
theorem State.moved_cry : (s.moved l e).cry = s.cry := by
  show (s.moved l e).core.cry = s.core.cry
  rw [s.moved_core l hcrossed]

/-- Its own link loses the request and what the request held of the receive buffer. -/
theorem State.moved_link (h : (s.link l).used) : ∃ x, (s.moved l e).link l = ((s.link l).dropHeld e.id).withRx x := by
  have hread := s.link_setLink_of_used l (v := (s.link l).dropHeld e.id) h
  have hmoved := s.moved_of_not_crossed l hcrossed
  change s.moved l e = (if e.paid then (s.setLink l ((s.link l).dropHeld e.id)).freeSlots l 0 (1 + e.slots.length)
    else s.setLink l ((s.link l).dropHeld e.id)) at hmoved
  rw [hmoved]
  split
  · obtain ⟨x, hx⟩ := State.freeSlots_link (s.setLink l ((s.link l).dropHeld e.id)) l (by rw [hread]; exact h) 0
      (1 + e.slots.length)
    exact ⟨x, by rw [hx, hread]⟩
  · exact ⟨⟨_, _, _⟩, hread⟩

end

/-! ### Pushes while no other link waits (R80, R81) -/

section
variable {s : State} {l : Nat} {e : HeldReq} (hothers : ∀ j ∈ links16, j ≠ l → (s.link j).held = [])
include hothers

theorem State.rivals_of_others_none_held (want : Nat → HeldReq → Nat) : s.rivals l want = (0, []) := by
  refine foldl_eq_of_fixed (fun a j hj => ?_) _
  obtain ⟨hmem, hne⟩ := List.mem_filter.1 hj
  rw [hothers j hmem (by simpa using hne)]
  rfl

/-- A request that no earlier one of its link blocks, and for which there are entries, is pushed; placed, it moves on. -/
theorem State.tryHeld_of_no_rivals (hfirst : (s.link l).held.takeWhile (fun x => x.id != e.id) = [])
    (hpool : s.wantShared l e ≤ 8192 - s.sharedHeld) (hlayby : s.wantLayby l e ≤ 2048 - s.laybyHeld) {t : State}
    (hput : s.putReq l e.op e.h e.slots e.id = .placed t) : s.tryHeld l e = t.moved l e := by
  have hpoolTurn : s.poolTurn l e = none := by
    rw [State.poolTurn, State.rivals_of_others_none_held hothers]
    exact State.turn_of_no_rivals (.inr hpool) poolArb
  have hlaybyTurn : s.laybyTurn l e = none := by
    rw [State.laybyTurn, State.rivals_of_others_none_held hothers]
    exact State.turn_of_no_rivals (.inr hlayby) laybyArb
  simp [State.tryHeld, hfirst, hpoolTurn, hlaybyTurn, hput, State.turned]

end

/-! ### The canonical form of parts that come from a state in canonical form -/

section
variable {s t : State} (hwf : s.tablesWf = true)
include hwf

theorem State.norm_frames_of_eq (h : t.sto.frames = s.sto.frames) : t.norm.sto.frames = s.sto.frames := by
  calc t.norm.sto.frames = s.norm.sto.frames := by simp only [State.norm, h]
    _ = s.sto.frames := by rw [State.norm_eq s hwf]

theorem State.norm_cry_of_eq (h : t.cry = s.cry) : t.norm.cry = s.cry := by
  calc t.norm.cry = s.norm.cry := by simp only [State.norm, h]
    _ = s.cry := by rw [State.norm_eq s hwf]

end

end Sys2Proof.Machine
end

section
/-! SUPPORT. Queued requests that pass every check and find room (R77, R78, R83, R140). -/
namespace Sys2Proof.Machine

/-! ### The entries of the parts -/

theorem eq_none_of_failures_nil {rs : List (Option (Refuse × Nat))} (h : failures rs = []) : ∀ r ∈ rs, r = none := by
  have hnone : rs.filterMap id = [] := by
    unfold failures at h
    split at h
    · simp at h
    · exact h
  intro r hr
  exact List.filterMap_eq_nil_iff.1 hnone r hr

section
variable {s : State} {op : BitVec 6} {h : Req} {slots : List MsgSlot} {id : Nat} {rs : List (Option (Refuse × Nat))}

theorem State.length_queueEnts : (s.queueEnts op h slots id rs).length = (reqParts op h).length := by
  simp [State.queueEnts]

/-- The entries stand in the order of the parts. -/
theorem State.queueEnts_parts :
    (s.queueEnts op h slots id rs).map (fun e => (e.addr, e.size)) =
      (reqParts op h).map (fun x => (BitVec.ofNat 40 x.1, x.2)) := by
  refine List.ext_getElem (by simp [State.queueEnts]) (fun i hi hi' => ?_)
  have hlt : i < (reqParts op h).length := by simpa using hi'
  simp [State.queueEnts, mkEnt, List.getD, hlt]

/-- Every entry carries its request, and no part is refused where no check fails. -/
theorem State.mem_queueEnts (hrs : failures rs = []) {e : QEnt} (he : e ∈ s.queueEnts op h slots id rs) :
    e.id = id ∧ e.op = op ∧ e.tag = h.tag ∧ e.busErr = false := by
  obtain ⟨i, -, rfl⟩ := List.mem_map.1 he
  refine ⟨rfl, rfl, rfl, ?_⟩
  have hnone : rs.getD i none = none := by
    rw [List.getD_eq_getElem?_getD]
    cases hget : rs[i]? with
    | none => rfl
    | some r => exact eq_none_of_failures_nil hrs r (List.mem_of_getElem? hget)
  change (rs.getD i none).isSome = false
  rw [hnone]
  rfl

end

/-! ### The request joins its queue -/

/-- What the entries and the answer of a queued request are, and what their queue is once they have joined it. -/
structure Queued (s u : State) (q : Nat) (op : BitVec 6) (h : Req) (id : Nat) (es : List QEnt) : Prop where
  ents : ∀ e ∈ es, e.id = id ∧ e.op = op ∧ e.tag = h.tag ∧ e.busErr = false
  parts : es.map (fun e => (e.addr, e.size)) = (reqParts op h).map (fun x => (BitVec.ofNat 40 x.1, x.2))
  entered : Entered s u
  ports : u.ports = s.ports
  queue : ∀ j, u.queue j = if j = q then
    ⟨(s.queue q).ents ++ es, (s.queue q).answers ++ [mkAns id op h (decide (1 < (reqParts op h).length))]⟩ else s.queue j

section
variable {s : State} {p : Nat} {op : BitVec 6} {h : Req} {slots : List MsgSlot} {id : Nat} {rs : List (Option (Refuse × Nat))}

theorem QEnt.fields_of_unreserved {e e' : QEnt} (h : e'.unreserved = e.unreserved) :
    e'.id = e.id ∧ e'.op = e.op ∧ e'.tag = e.tag ∧ e'.busErr = e.busErr ∧ e'.addr = e.addr ∧ e'.size = e.size := by
  have hfields (f : QEnt → Nat × BitVec 6 × BitVec 12 × Bool × Addr × Nat) := congrArg f h
  have := hfields (fun e => (e.id, e.op, e.tag, e.busErr, e.addr, e.size))
  simpa [QEnt.unreserved] using this

/-- A request other than a conditional store that passes every check, with room for its parts and no write of its port that
could answer it (R91). -/
theorem State.putQueued_of_room_of_parts (hp : p < 1024) (hwf : twf queueDef s.queues = true) (hcond : op ≠ opWrCond)
    (hrs : failures rs = []) (hroom : s.poolRoom p (reqParts op h).length = true) (hempty : (s.port p).layby = []) :
    ∃ es u, s.putQueued p op h slots id rs = .placed u ∧ Queued s u (queueOf p h.tc.toNat) op h id es := by
  obtain ⟨es, t, hpush, hes, hent, hports, hqueue⟩ := pushParts_of_room (tc := h.tc.toNat) hp
    (es := s.queueEnts op h slots id rs) hwf (by rw [State.length_queueEnts]; exact hroom)
  obtain ⟨u, hu⟩ : ∃ u, u = t.pushAns (queueOf p h.tc.toNat) (mkAns id op h (decide (1 < (reqParts op h).length))) := ⟨_, rfl⟩
  have hfwd : u.tryForward (queueOf p h.tc.toNat) = none := by
    refine State.tryForward_of_empty_layby ?_
    rw [queueOf_div p h.tc.isLt, hu]
    exact (congrArg Port.layby (State.port_congr hports p)).trans hempty
  have hput : s.putQueued p op h slots id rs = .placed u := by
    simp only [State.putQueued, hpush, hrs, beq_eq_false_iff_ne.2 hcond, Bool.false_and, Bool.false_eq_true, if_false, forEach,
      State.length_queueEnts, ← hu, hfwd, Option.getD_none]
  refine ⟨es, u, hput, fun e he => ?ents, ?parts, hent.trans (hu ▸ Entered.pushAns t _ _), (hu ▸ hports), fun j => ?queue⟩
  case ents =>
    have hmem : e.unreserved ∈ (s.queueEnts op h slots id rs).map QEnt.unreserved := hes ▸ List.mem_map_of_mem he
    obtain ⟨e', he', heq⟩ := List.mem_map.1 hmem
    obtain ⟨hid, hop, htag, hbad⟩ := State.mem_queueEnts hrs he'
    obtain ⟨hid', hop', htag', hbad', -, -⟩ := QEnt.fields_of_unreserved heq.symm
    exact ⟨hid'.trans hid, hop'.trans hop, htag'.trans htag, hbad'.trans hbad⟩
  case parts =>
    have hmap := congrArg (List.map (fun e : QEnt => (e.addr, e.size))) hes
    rw [List.map_map, List.map_map] at hmap
    exact hmap.trans State.queueEnts_parts
  case queue =>
    rw [hu, State.pushAns_queue, hqueue, hqueue, if_pos rfl]
    split <;> rfl

end

/-! ### From the link to the queue -/

section
variable {s : State} {l : Fin 16} {h : Req} {slots : List MsgSlot} {op : BitVec 6}

theorem port_lt (l : Fin 16) (h : Req) : l.val * 64 + h.stream.toNat < 1024 := by
  have hl := l.isLt
  have hstream := h.stream.isLt
  omega

/-- A queued request with room for its parts: its link takes it in, it joins its queue, and it leaves the receive buffer. -/
theorem State.reqIn_of_room_of_parts (hwf : s.tablesWf = true) (hcan : s.canEnter l.val h slots.length = true)
    (hpost : isPostedOp op = false) (hcond : op ≠ opWrCond) (hfence : op ≠ opFence)
    (hroom : s.poolRoom (l.val * 64 + h.stream.toNat) (reqParts op h).length = true)
    (hempty : (s.port (l.val * 64 + h.stream.toNat)).layby = [])
    (hchecks : failures (s.enqCheck l.val (l.val * 64 + h.stream.toNat) op h) = []) :
    ∃ es u, s.reqIn l.val op h slots = u.moved l.val (s.pushed op h slots) ∧
      Queued (s.reqTaken l.val op h slots) u (queueOf (l.val * 64 + h.stream.toNat) h.tc.toNat) op h s.arrival es := by
  obtain ⟨hact, -, -, -, hheld, -, hsafe, hboot, hvotes⟩ := State.canEnter_iff.1 hcan
  obtain ⟨s', hs'⟩ : ∃ s', s' = s.reqTaken l.val op h slots := ⟨_, rfl⟩
  have hroom' : s'.poolRoom (l.val * 64 + h.stream.toNat) (reqParts op h).length = true := by
    rw [hs', State.reqTaken_poolRoom, hroom]
  have hempty' : (s'.port (l.val * 64 + h.stream.toNat)).layby = [] := by
    rw [hs', State.reqTaken_port_of_ne_fence hfence, hempty]
  have hwf' : twf queueDef s'.queues = true := hs' ▸ State.twf_queues (State.wf_reqTaken hwf)
  obtain ⟨es, u, hput, hqueued⟩ := State.putQueued_of_room_of_parts (slots := slots) (id := s.arrival) (port_lt l h) hwf'
    hcond hchecks hroom' hempty'
  have hhalt : s'.answersHalted op h = false :=
    State.answersHalted_of_running (by rw [hs', State.reqTaken_saf, hsafe]) (by rw [hs', State.reqTaken_power, hboot])
  have hplaced : s'.putReq l.val op h slots s.arrival = .placed u := by
    refine (State.putReq_of_queued (by rw [hs', State.reqTaken_votesOk, hvotes]) hhalt hpost).trans ?_
    rw [hs', State.reqTaken_enqCheck hact, ← hs']
    exact hput
  have hheld' (j : Nat) (hj : j ∈ links16) : (s'.link j).held = [] := by
    rw [hs', State.reqTaken_held hact, hheld j hj]
  refine ⟨es, u, ?_, hs' ▸ hqueued⟩
  rw [State.reqIn_of_canEnter hcan, ← hs']
  exact State.tryHeld_of_placed (e := s.pushed op h slots) hheld' (List.mem_range.2 l.isLt) hpost
    (State.poolRoom_iff.1 hroom').2 (fun h => absurd h hcond) hplaced

theorem State.reqTaken_arrival : (s.reqTaken l.val op h slots).arrival = s.arrival + 1 := by
  unfold State.reqTaken; dsimp only; split <;> rfl
theorem State.reqTaken_pending : (s.reqTaken l.val op h slots).pending = s.pending := by
  unfold State.reqTaken; dsimp only; split <;> rfl
theorem State.reqTaken_sto : (s.reqTaken l.val op h slots).sto = s.sto := by
  unfold State.reqTaken; dsimp only; split <;> rfl
theorem State.reqTaken_cry : (s.reqTaken l.val op h slots).cry = s.cry := by
  unfold State.reqTaken; dsimp only; split <;> rfl

section
variable {u : State} (hent : Entered (s.reqTaken l.val op h slots) u)
include hent

/-- Once the request has left the receive buffer, its link is as it took the request in, but for what the buffer holds and
what counting sent. -/
theorem State.moved_link_of_entered (hact : (s.link l.val).state = .active) :
    ((u.moved l.val (s.pushed op h slots)).link l.val).reqTags = ((s.link l.val).reqTaken op h slots).reqTags ∧
      ((u.moved l.val (s.pushed op h slots)).link l.val).wbOpen = ((s.link l.val).reqTaken op h slots).wbOpen := by
  obtain ⟨hcore, htags, hopen⟩ := hent.counted.sameTags l.val
  have hlink : (s.reqTaken l.val op h slots).link l.val = (s.link l.val).reqTaken op h slots := by
    rw [State.reqTaken_link hact, if_pos rfl]
  rw [hlink] at hcore htags hopen
  have hactive : ((s.link l.val).reqTaken op h slots).used := .inl (LinkState.ne_detect_of_active hact)
  obtain ⟨x, hx⟩ := u.moved_link l.val (e := s.pushed op h slots) rfl (Link.used_of_core hcore hactive)
  rw [hx]
  exact ⟨htags, hopen⟩

end

/-- And the rest of the machine is as it was, but for the queues and the ports. -/
theorem State.moved_of_reported {u : State} (hwf : s.tablesWf = true)
    (hrep : Reported { s.reqTaken l.val op h slots with queues := u.queues, ports := u.ports } u) :
    let t := (u.moved l.val (s.pushed op h slots)).norm
    t.home = s.home ∧ t.sto.frames = s.sto.frames ∧ t.mem = s.mem ∧ t.cry = s.cry ∧
      (∀ j, t.port j = u.port j) ∧ ∀ j, t.queue j = u.queue j := by
  have hcrossed : (s.pushed op h slots).crossed = false := rfl
  have hhome := hrep.home.trans State.reqTaken_home
  have hsto := congrArg Store.frames (State.reqTaken_sto (s := s) (l := l) (h := h) (slots := slots) (op := op))
  have hmem := hrep.mem.trans State.reqTaken_mem
  have hcry := hrep.cry.trans State.reqTaken_cry
  refine ⟨State.norm_home_of_eq hwf ((u.moved_home _ hcrossed).trans hhome),
    State.norm_frames_of_eq hwf (((u.moved_frames _ hcrossed).trans hrep.frames).trans hsto),
    State.norm_mem_of_eq hwf ((u.moved_mem _ hcrossed).trans hmem),
    State.norm_cry_of_eq hwf ((u.moved_cry _ hcrossed).trans hcry), fun j => ?_, fun j => ?_⟩
  · rw [State.norm_port, State.port_congr (u.moved_ports _ hcrossed)]
  · rw [State.norm_queue, State.queue_congr (u.moved_queues _ hcrossed)]

end

/-! ### The statement -/

/-- The requests that wait in a queue of their own kind: no write, no conditional store, no FENCE. -/
theorem exec_of_queued_request {l : Fin 16} {h : Req} {slots : List MsgSlot} {op : BitVec 6} {c : Instr}
    (hmem : (op, c, slots) ∈ [(opRdShared, .rdShared l h, []), (opRdUnique, .rdUnique l h, []), (opRdOnce, .rdOnce l h, []),
      (opUpgrade, .upgrade l h, []), (opEvictClean, .evictClean l h, []), (opRdRsv, .rdRsv l h, []),
      (opAtomic, Instr.atomic l h slots, slots)]) :
    (∀ s, exec c s = (s.reqIn l.val op h slots).done) ∧ isPostedOp op = false ∧ op ≠ opWrCond ∧ op ≠ opFence := by
  simp only [List.mem_cons, List.not_mem_nil, or_false, Prod.mk.injEq] at hmem
  rcases hmem with ⟨rfl, rfl, rfl⟩ | ⟨rfl, rfl, rfl⟩ | ⟨rfl, rfl, rfl⟩ | ⟨rfl, rfl, rfl⟩ | ⟨rfl, rfl, rfl⟩ | ⟨rfl, rfl, rfl⟩ |
    ⟨rfl, rfl, -⟩
  all_goals exact ⟨fun s => rfl, by decide, by decide, by decide⟩

/-- Settles O22: the parts join the queue in turn, and what leaves the receive buffer changes nothing but its link. -/
theorem requestQueued : Obligations.RequestQueued := by
  intro s l h slots op c hwf hmem p q ps hcan hroom hempty hchecks
  obtain ⟨hexec, hpost, hcond, hfence⟩ := exec_of_queued_request hmem
  obtain ⟨es, u, hreq, hqueued⟩ := State.reqIn_of_room_of_parts hwf hcan hpost hcond hfence hroom hempty hchecks
  obtain ⟨hact, -⟩ := State.canEnter_iff.1 hcan
  have hcrossed : (s.pushed op h slots).crossed = false := rfl
  obtain ⟨htags, -⟩ := State.moved_link_of_entered hqueued.entered hact
  obtain ⟨hhome, hframes, hmem', hcry, hports, hqueues⟩ := State.moved_of_reported hwf hqueued.entered.reported
  have hqueue (j : Nat) := (hqueues j).trans (hqueued.queue j)
  simp only [State.queue_congr State.reqTaken_queues] at hqueue
  have hlink := State.norm_link (u.moved l.val (s.pushed op h slots)) l.val
  have hport (j : Nat) : u.port j = s.port j := by
    rw [State.port_congr hqueued.ports, State.reqTaken_port_of_ne_fence hfence]
  refine ⟨(u.moved l.val (s.pushed op h slots)).norm, es, (hexec s).trans (congrArg State.done hreq), hqueued.ents,
    hqueued.parts, (hqueue q).trans (if_pos rfl), ?arrival, ?tags, fun j hj => (hqueue j).trans (if_neg hj),
    fun j => (hports j).trans (hport j), hhome, hframes, hmem', hcry, ?pending⟩
  case arrival =>
    rw [State.norm_arrival, u.moved_arrival l.val hcrossed, hqueued.entered.arrival, State.reqTaken_arrival]
  case tags => exact (congrArg Link.reqTags hlink).trans htags
  case pending =>
    rw [State.norm_pending, u.moved_pending l.val hcrossed, hqueued.entered.pending, State.reqTaken_pending]

end Sys2Proof.Machine
end

section
/-! SUPPORT. Writes that pass every check, find room and do not merge (R77, R86, R88, R140). -/
namespace Sys2Proof.Machine

/-! ### The lay-by entries of the parts -/

/-- A request is one part, or two that meet at the end of its first line. -/
theorem reqParts_cases (op : BitVec 6) (h : Req) : (∃ a n, reqParts op h = [(a, n)]) ∨
    ∃ a m n, reqParts op h = [(a, m), (a + m, n)] ∧ m = 128 - a % 128 := by
  unfold reqParts
  dsimp only
  split
  · exact .inr ⟨_, _, _, rfl, rfl⟩
  · exact .inl ⟨_, _, rfl⟩

section
variable {s : State} {op : BitVec 6} {h : Req} {slots : List MsgSlot} {id p : Nat}

theorem State.length_layEnts : (s.layEnts op h slots id).length = (reqParts op h).length := by
  simp [State.layEnts]

/-- The parts lie in different lines. -/
theorem State.layEnts_lines : (s.layEnts op h slots id).IsChain (fun a b => a.line ≠ b.line) := by
  rcases reqParts_cases op h with ⟨a, n, hparts⟩ | ⟨a, m, n, hparts, hm⟩
  · simp [State.layEnts, hparts, List.range_succ]
  · have hline : a / 128 ≠ (a + m) / 128 := by omega
    simpa [State.layEnts, hparts, List.range_succ, mkLay] using hline

theorem State.layEnts_congr {t : State} (hcsr : t.csr = s.csr) : t.layEnts op h slots id = s.layEnts op h slots id := by
  have hdest : t.destOf h = s.destOf h := by
    unfold State.destOf
    rw [State.pdw_congr hcsr]
  simp only [State.layEnts, hdest]

/-- A part needs one entry, or none where it merges (R87). -/
theorem State.layNeed_le (es : List LbEnt) : s.layNeed p es ≤ es.length := by
  cases es with
  | nil => exact Nat.le_refl 0
  | cons e r =>
    simp only [State.layNeed, List.length_cons]
    split <;> omega

theorem State.laybyGet_of_le {n m : Nat} (hroom : s.laybyRoom p n = true) (hle : m ≤ n) : s.laybyGet p m = .shared := by
  obtain ⟨hport, hall⟩ := State.laybyRoom_iff.1 hroom
  unfold State.laybyGet
  split
  · rfl
  · rw [if_neg (by omega)]
    exact if_neg (Nat.not_lt.2 ((Nat.add_le_add_left hle _).trans hall))

/-! ### The write is placed -/

/-- The lay-by has taken the parts of the write. -/
def State.laidBy (s : State) (p : Nat) (op : BitVec 6) (h : Req) (slots : List MsgSlot) (id : Nat) : State :=
  forEach (fun e s => s.layAccept p e) (s.layEnts op h slots id) s

/-- A WR_FULL and a WR_PTL are answered at once; a WB_FULL is answered when it is ordered (R88). -/
def State.postedCmp (s : State) (p : Nat) (op : BitVec 6) (h : Req) : State :=
  if op == opWbFull then s else s.sendCmp p h.tc.toNat h.tag stOk

theorem State.putWrite_of_room (hroom : s.laybyRoom p (reqParts op h).length = true) :
    s.putWrite p op h slots id = .placed ((s.laidBy p op h slots id).postedCmp p op h) := by
  have hneed := s.layNeed_le (p := p) (s.layEnts op h slots id)
  rw [State.length_layEnts] at hneed
  have hget := State.laybyGet_of_le hroom hneed
  simp only [State.putWrite, hget]
  rfl

theorem State.putReq_of_posted {l : Nat} (hvotes : s.votesOk (s.votedUsed usesDomains) = true)
    (hhalt : s.answersHalted op h = false) (hpost : isPostedOp op = true)
    (hchecks : failures (s.enqCheck l (l * 64 + h.stream.toNat) op h) = []) :
    s.putReq l op h slots id = s.putWrite (l * 64 + h.stream.toNat) op h slots id := by
  simp [State.putReq, s.guardVotes_of_votesOk hvotes, hhalt, hpost, hchecks]

theorem State.wantShared_of_posted {l : Nat} {e : HeldReq} (hpost : isPostedOp e.op = true) : s.wantShared l e = 0 := by
  simp [State.wantShared, hpost]

theorem State.wantLayby_of_posted_le {l : Nat} {e : HeldReq} (hcond : e.op ≠ opWrCond) :
    s.wantLayby l e ≤ (reqParts e.op e.h).length := by
  have hneed := State.layNeed_le (s := s) (p := e.port l) (s.layEnts e.op e.h e.slots e.id)
  rw [State.length_layEnts] at hneed
  simp only [State.wantLayby, beq_eq_false_iff_ne.2 hcond, Bool.false_eq_true, if_false]
  split
  · exact Nat.zero_le _
  · split
    · exact Nat.zero_le _
    · exact hneed

end

/-! ### From the link to the lay-by -/

section
variable {s : State} {l : Fin 16} {h : Req} {slots : List MsgSlot} {op : BitVec 6}

/-- A write that passes every check and finds room: its link takes it in, its parts join the lay-by, all but a WB_FULL are
answered at once (R88), and it leaves the receive buffer. -/
theorem State.reqIn_write_of_room (hcan : s.canEnter l.val h slots.length = true) (hpost : isPostedOp op = true)
    (hcond : op ≠ opWrCond) (hfence : op ≠ opFence)
    (hroom : s.laybyRoom (l.val * 64 + h.stream.toNat) (reqParts op h).length = true)
    (hchecks : failures (s.enqCheck l.val (l.val * 64 + h.stream.toNat) op h) = []) :
    s.reqIn l.val op h slots = (((s.reqTaken l.val op h slots).laidBy (l.val * 64 + h.stream.toNat) op h slots
      s.arrival).postedCmp (l.val * 64 + h.stream.toNat) op h).moved l.val (s.pushed op h slots) := by
  obtain ⟨hact, -, -, -, hheld, -, hsafe, hboot, hvotes⟩ := State.canEnter_iff.1 hcan
  obtain ⟨s', hs'⟩ : ∃ s', s' = s.reqTaken l.val op h slots := ⟨_, rfl⟩
  have hroom' : s'.laybyRoom (l.val * 64 + h.stream.toNat) (reqParts op h).length = true := by
    rw [hs', State.reqTaken_laybyRoom hfence, hroom]
  have hhalt : s'.answersHalted op h = false :=
    State.answersHalted_of_running (by rw [hs', State.reqTaken_saf, hsafe]) (by rw [hs', State.reqTaken_power, hboot])
  have hchecks' : failures (s'.enqCheck l.val (l.val * 64 + h.stream.toNat) op h) = [] := by
    rw [hs', State.reqTaken_enqCheck hact, hchecks]
  have hput := (State.putReq_of_posted (slots := slots) (id := s.arrival) (by rw [hs', State.reqTaken_votesOk, hvotes])
    hhalt hpost hchecks').trans (State.putWrite_of_room hroom')
  have hheld' (j : Nat) (hj : j ∈ links16) : (s'.link j).held = [] := by
    rw [hs', State.reqTaken_held hact, hheld j hj]
  have hlayby : s'.wantLayby l.val (s.pushed op h slots) ≤ 2048 - s'.laybyHeld := by
    have hwant := State.wantLayby_of_posted_le (s := s') (l := l.val) (e := s.pushed op h slots) hcond
    obtain ⟨-, hall⟩ := State.laybyRoom_iff.1 hroom'
    exact hwant.trans (Nat.le_sub_of_add_le' hall)
  rw [State.reqIn_of_canEnter hcan, ← hs']
  refine (State.tryHeld_of_no_rivals (fun j hj _ => hheld' j hj) ?_ ?_ hlayby hput).trans ?_
  · rw [hheld' l.val (List.mem_range.2 l.isLt)]
    rfl
  · rw [State.wantShared_of_posted (e := s.pushed op h slots) hpost]
    exact Nat.zero_le _
  · rw [hs']

/-- What the lay-by holds once it has taken the parts of a write whose first part does not merge. -/
theorem State.laidBy_of_not_mergeable (hfence : op ≠ opFence) {p : Nat}
    (hfirst : ∀ e, (s.layEnts op h slots s.arrival).head? = some e → (s.port p).mergeable e = false) :
    let u := (s.reqTaken l.val op h slots).laidBy p op h slots s.arrival
    Entered (s.reqTaken l.val op h slots) u ∧ Reports (s.reqTaken l.val op h slots) u ∧ (∀ j, u.queue j = s.queue j) ∧
      ∀ j, u.port j = if j = p then (s.port p).accept (s.layEnts op h slots s.arrival) else s.port j := by
  have hport (j : Nat) : (s.reqTaken l.val op h slots).port j = s.port j := State.reqTaken_port_of_ne_fence hfence j
  have hes : (s.reqTaken l.val op h slots).layEnts op h slots s.arrival = s.layEnts op h slots s.arrival :=
    State.layEnts_congr State.reqTaken_csr
  have haccept := State.forEach_layAccept (s := s.reqTaken l.val op h slots) (p := p)
    (fun e he => by rw [hport]; exact hfirst e he) (State.layEnts_lines (s := s))
  rw [State.laidBy, hes]
  obtain ⟨hent, hreps, hqueues, hports⟩ := haccept
  simp only [hport] at hports
  exact ⟨hent, hreps, fun j => (State.queue_congr hqueues j).trans (State.queue_congr State.reqTaken_queues j), hports⟩

/-! ### The answer frees the tag (R54, R88) -/

theorem cmp_answers (stream tc : Nat) (tag : BitVec 12) (st : BitVec 4) (n : Nat) :
    (⟨rspHdr opCmp stream tc tag st grI, []⟩ : Msg).answers n = (tag.toNat == n) := by
  simp only [Msg.answers, Msg.opcode, rspHdr_opcode, rspHdr_tag]
  simp [opCmp]

section
variable (k : Link) (op : BitVec 6) (h : Req) (slots : List MsgSlot)

/-- A request that a link takes in changes nothing that decides what it can send. -/
theorem Link.canSend_reqTaken (m : Msg) : (k.reqTaken op h slots).canSend m = k.canSend m := rfl
theorem Link.classClear_reqTaken (m : Msg) : (k.reqTaken op h slots).classClear m = k.classClear m := rfl
theorem Link.reqTags_reqTaken : (k.reqTaken op h slots).reqTags = k.reqTags ++ [h.tag.toNat] := rfl
theorem Link.state_reqTaken : (k.reqTaken op h slots).state = k.state := rfl
theorem Link.send_state (half : Bool) (m : Msg) : (k.send half m).state = k.state := rfl

end

/-- The tags in use once the answer to the newest of them has left. -/
theorem Link.send_cmp_reqTags {k : Link} {tag : BitVec 12} {tags : List Nat} (htags : k.reqTags = tags ++ [tag.toNat])
    (hnew : tag.toNat ∉ tags) (half : Bool) (stream tc : Nat) (st : BitVec 4) :
    (k.send half ⟨rspHdr opCmp stream tc tag st grI, []⟩).reqTags = tags := by
  have hkeep : tags.filter (fun t => !(tag.toNat == t)) = tags :=
    List.filter_eq_self.2 (fun t ht => by simpa using fun heq : tag.toNat = t => hnew (heq ▸ ht))
  simp only [Link.send, cmp_answers, htags, List.filter_append, hkeep]
  simp

theorem State.sendCmp_of_active {u : State} {tag : BitVec 12} {tc : Nat} {st : BitVec 4} (hact : (u.link l.val).state = .active) :
    u.sendCmp (l.val * 64 + h.stream.toNat) tc tag st =
      u.sendMsg l.val ⟨rspHdr opCmp h.stream.toNat tc tag st grI, []⟩ := by
  have hstream := h.stream.isLt
  have hlink : (l.val * 64 + h.stream.toNat) / 64 = l.val := by omega
  have hmod : (l.val * 64 + h.stream.toNat) % 64 = h.stream.toNat := by omega
  simp [State.sendCmp, hlink, hmod, hact, LinkState.alive]

/-- While INTR messages have no port to go to (R322), the answer to the newest request of a link leaves, where it can, and
with it the tag that the link took in with the request. -/
theorem State.sendCmp_reqTags {u : State} (hact : (s.link l.val).state = .active) (hnew : h.tag.toNat ∉ (s.link l.val).reqTags)
    (hreps : Reports (s.reqTaken l.val op h slots) u) (hroute : s.bit rIntrRoute 10 = false) {tc : Nat} {st : BitVec 4}
    (hsend : (s.link l.val).canSend ⟨rspHdr opCmp h.stream.toNat tc h.tag st grI, []⟩ = true)
    (hclear : (s.link l.val).classClear ⟨rspHdr opCmp h.stream.toNat tc h.tag st grI, []⟩ = true) :
    ((u.sendCmp (l.val * 64 + h.stream.toNat) tc h.tag st).link l.val).reqTags = (s.link l.val).reqTags ∧
      ((u.sendCmp (l.val * 64 + h.stream.toNat) tc h.tag st).link l.val).used := by
  obtain ⟨hlinks, hroute'⟩ := hreps.unrouted (by rw [State.bit_congr State.reqTaken_csr, hroute])
  have hu : u.link l.val = (s.link l.val).reqTaken op h slots := by
    have hsame : u.link l.val = (s.reqTaken l.val op h slots).link l.val := by simp only [State.link, hlinks]
    rw [hsame, State.reqTaken_link hact, if_pos rfl]
  obtain ⟨m, hm⟩ : ∃ m : Msg, m = ⟨rspHdr opCmp h.stream.toNat tc h.tag st grI, []⟩ := ⟨_, rfl⟩
  have hact' : (u.link l.val).state = .active := by rw [hu, Link.state_reqTaken, hact]
  rw [← hm] at hsend hclear
  have hlink := State.sendMsg_link (s := u) (l := l.val) (m := m) (by rw [hu, Link.canSend_reqTaken, hsend])
    (by rw [hu, Link.classClear_reqTaken, hclear]) hroute'
  have htags : (u.link l.val).reqTags = (s.link l.val).reqTags ++ [h.tag.toNat] := by rw [hu, Link.reqTags_reqTaken]
  rw [State.sendCmp_of_active hact', ← hm, hlink]
  refine ⟨?_, .inl ?_⟩
  · rw [hm]
    exact Link.send_cmp_reqTags htags hnew _ _ _ _
  · rw [Link.send_state, hact']
    exact LinkState.ne_detect_of_active rfl

theorem Reported.postedCmp (u : State) (p : Nat) (op : BitVec 6) (h : Req) : Reported u (u.postedCmp p op h) := by
  unfold State.postedCmp State.sendCmp
  dsimp only
  repeat' split
  · exact .refl u
  · exact Reported.sendMsg u _ _
  · exact .refl u

theorem State.postedCmp_of_writeback (u : State) (p : Nat) (hop : op = opWbFull) : u.postedCmp p op h = u :=
  if_pos (beq_iff_eq.2 hop)

theorem State.postedCmp_of_answered (u : State) (p : Nat) (hop : op ≠ opWbFull) :
    u.postedCmp p op h = u.sendCmp p h.tc.toNat h.tag stOk := if_neg (by simpa using hop)

end

/-! ### The statement -/

theorem exec_of_write {l : Fin 16} {h : Req} {slots : List MsgSlot} {op : BitVec 6} {c : Instr}
    (hmem : (op, c) ∈ [(opWrFull, Instr.wrFull l h slots), (opWrPtl, .wrPtl l h slots), (opWbFull, .wbFull l h slots)]) :
    (∀ s, exec c s = (s.reqIn l.val op h slots).done) ∧ isPostedOp op = true ∧ op ≠ opWrCond ∧ op ≠ opFence := by
  simp only [List.mem_cons, List.not_mem_nil, or_false, Prod.mk.injEq] at hmem
  rcases hmem with ⟨rfl, rfl⟩ | ⟨rfl, rfl⟩ | ⟨rfl, rfl⟩
  all_goals exact ⟨fun s => rfl, by decide, by decide, by decide⟩

/-- Settles O23: the parts join the lay-by in turn; the answer, where there is one, frees the tag as it leaves. -/
theorem writeAccepted : Obligations.WriteAccepted := by
  intro s l h slots op c hwf hmem p ps es cmp hcan hroom hfirst hchecks
  obtain ⟨hexec, hpost, hcond, hfence⟩ := exec_of_write hmem
  obtain ⟨hact, -, -, htag, -⟩ := State.canEnter_iff.1 hcan
  obtain ⟨hent, hreps, hqueues, hports⟩ := State.laidBy_of_not_mergeable (l := l) hfence hfirst
  have hreq : s.reqIn l.val op h slots = (((s.reqTaken l.val op h slots).laidBy p op h slots s.arrival).postedCmp p op h).moved
    l.val (s.pushed op h slots) := State.reqIn_write_of_room hcan hpost hcond hfence hroom hchecks
  generalize (s.reqTaken l.val op h slots).laidBy p op h slots s.arrival = u at hent hreps hqueues hports hreq
  have huv := Reported.postedCmp u p op h
  obtain ⟨v, hv⟩ : ∃ v, v = u.postedCmp p op h := ⟨_, rfl⟩
  rw [← hv] at hreq huv
  have hrep : Reported { s.reqTaken l.val op h slots with queues := v.queues, ports := v.ports } v := by
    rw [huv.queues, huv.ports]
    exact hent.reported.trans huv
  obtain ⟨hhome, hframes, hmem', hcry, hportm, hqueuem⟩ := State.moved_of_reported hwf hrep
  have hport (j : Nat) := (hportm j).trans ((State.port_congr huv.ports j).trans (hports j))
  have hqueue (j : Nat) := (hqueuem j).trans ((State.queue_congr huv.queues j).trans (hqueues j))
  have hlink := State.norm_link (v.moved l.val (s.pushed op h slots)) l.val
  refine ⟨(v.moved l.val (s.pushed op h slots)).norm, (hexec s).trans (congrArg State.done hreq), (hport p).trans (if_pos rfl),
    fun hop hroute hsend hclear => ?answered, fun hop => ?writeback, fun j hj => (hport j).trans (if_neg hj), hqueue, hhome,
    hframes, hmem', hcry⟩
  case answered =>
    obtain ⟨htags, hused⟩ := State.sendCmp_reqTags hact htag hreps hroute hsend hclear
    have hvu : v = u.sendCmp p h.tc.toNat h.tag stOk := hv.trans (u.postedCmp_of_answered p hop)
    rw [← hvu] at htags hused
    obtain ⟨x, hx⟩ := v.moved_link l.val (e := s.pushed op h slots) rfl hused
    rw [hlink, hx]
    exact htags
  case writeback =>
    have hvu : v = u := hv.trans (u.postedCmp_of_writeback p hop)
    obtain ⟨htags, hopen⟩ := State.moved_link_of_entered (hvu ▸ hent) hact
    rw [hlink]
    refine ⟨htags, hopen.trans ?_⟩
    simp [Link.reqTaken, hop]

end Sys2Proof.Machine
end

section
/-! SUPPORT. Held requests that are pushed again (R80, R81), chained and held transactions and parked misses that go on (R93, R103,
R106, R107), and waiting prefetches (R172, R173). -/
namespace Sys2Proof.Machine

/-! ### The order of the pushes (R80) -/

/-- The rank of a held request among the pushes of its link: its port first, then its traffic class. -/
def HeldReq.rank (e : HeldReq) : Nat := e.h.stream.toNat * 8 + e.h.tc.toNat

theorem HeldReq.rank_lt (e : HeldReq) : e.rank < 512 := by
  have hstream := e.h.stream.isLt
  have htc := e.h.tc.isLt
  unfold HeldReq.rank
  omega

/-- The requests of `es` in the order of the ranks that `is` lists. -/
def byRanks (es : List HeldReq) (is : List Nat) : List HeldReq := is.flatMap (fun i => es.filter (fun e => e.rank == i))

theorem pushOrder_eq (es : List HeldReq) : pushOrder es = byRanks es (List.range 512) := (List.flatMap_def).symm

theorem byRanks_of_none {es : List HeldReq} {is : List Nat} (h : ∀ e ∈ es, e.rank ∉ is) : byRanks es is = [] := by
  refine List.flatMap_eq_nil_iff.2 (fun i hi => List.filter_eq_nil_iff.2 (fun e he hrank => ?_))
  exact h e he (beq_iff_eq.1 hrank ▸ hi)

/-- Of the ranks from `start` on, that of `b` is the lowest, and no other request has it. -/
theorem byRanks_of_lowest {es : List HeldReq} {b : HeldReq} {start m : Nat}
    (hb : es.filter (fun e => e.rank == b.rank) = [b]) (hstart : start ≤ b.rank) (hend : b.rank ≤ start + m)
    (hlow : ∀ e ∈ es, e.rank < start ∨ b.rank ≤ e.rank) :
    byRanks es (List.range' start (m + 1)) = b :: byRanks es (List.range' (b.rank + 1) (start + m - b.rank)) := by
  obtain ⟨i, hi⟩ := Nat.exists_eq_add_of_le hstart
  obtain ⟨j, hj⟩ := Nat.exists_eq_add_of_le hend
  have hcount : m + 1 = i + (j + 1) := by omega
  have hrest : start + m - b.rank = j := by omega
  have hcut : List.range' start (m + 1) = List.range' start i ++ b.rank :: List.range' (b.rank + 1) j := by
    rw [hcount, ← List.range'_append_1, List.range'_succ, hi]
  have hbefore : byRanks es (List.range' start i) = [] := by
    refine byRanks_of_none (fun e he hmem => ?_)
    have hrange := List.mem_range'_1.1 hmem
    rcases hlow e he with h | h <;> omega
  calc byRanks es (List.range' start (m + 1))
      = byRanks es (List.range' start i) ++ (es.filter (fun e => e.rank == b.rank) ++ byRanks es (List.range' (b.rank + 1) j)) := by
        rw [hcut, byRanks, List.flatMap_append, List.flatMap_cons]
        rfl
    _ = b :: byRanks es (List.range' (b.rank + 1) (start + m - b.rank)) := by
        rw [hbefore, hb, hrest]
        rfl

theorem byRanks_of_above {es : List HeldReq} {start m : Nat} (h : ∀ e ∈ es, e.rank < start) :
    byRanks es (List.range' start m) = [] :=
  byRanks_of_none (fun e he hmem => Nat.not_lt.2 (List.mem_range'_1.1 hmem).1 (h e he))

theorem pushOrder_singleton (e : HeldReq) : pushOrder [e] = [e] := by
  have hrank := e.rank_lt
  rw [pushOrder_eq, List.range_eq_range', byRanks_of_lowest (b := e) (by simp) (Nat.zero_le _) (by omega) (by simp),
    byRanks_of_above (by simp)]

/-- Of two requests, that of the lower rank is pushed first. -/
theorem pushOrder_pair {a b : HeldReq} (h : b.rank < a.rank) : pushOrder [a, b] = [b, a] := by
  have hrank := a.rank_lt
  have hne : ¬ a.rank = b.rank := Nat.ne_of_gt h
  have hne' : ¬ b.rank = a.rank := Nat.ne_of_lt h
  obtain ⟨m, hm⟩ : ∃ m, 0 + 511 - b.rank = m + 1 := ⟨510 - b.rank, by omega⟩
  rw [pushOrder_eq, List.range_eq_range',
    byRanks_of_lowest (b := b) (by simp [hne]) (Nat.zero_le _) (by omega) (by simp [h.le]), hm,
    byRanks_of_lowest (b := a) (by simp [hne']) h (by omega) (by simp), byRanks_of_above (by simp; omega)]

/-- A request that the only earlier one does not block is pushed with it; otherwise it waits (R81). -/
theorem pushers_pair {a b : HeldReq} : pushers [] [a, b] = if a.blocks b then [a] else [a, b] := by
  simp only [pushers, List.any_nil, Bool.false_eq_true, if_false, List.nil_append, List.any_cons, Bool.or_false]
  split <;> rfl

section
variable {s : State} {l : Fin 16}

theorem exec_enqueueRetry (hlive : s.live = true) {es : List HeldReq}
    (hes : pushOrder (pushers [] (s.link l.val).held) = es) :
    exec (.enqueueRetry l) s = .next (forEach (fun e s => s.tryHeld l.val e) es s).norm :=
  calc exec (.enqueueRetry l) s
      = State.done (if s.live then forEach (fun e s => s.tryHeld l.val e) (pushOrder (pushers [] (s.link l.val).held)) s
          else s) := rfl
    _ = _ := by rw [if_pos hlive, hes, State.done_next]

theorem exec_enqueueRetry_of_one (hlive : s.live = true) {e : HeldReq} (hheld : (s.link l.val).held = [e]) :
    exec (.enqueueRetry l) s = .next (s.tryHeld l.val e).norm :=
  exec_enqueueRetry hlive (es := [e]) (by rw [hheld]; exact pushOrder_singleton e)

theorem exec_enqueueRetry_of_blocked (hlive : s.live = true) {a b : HeldReq} (hheld : (s.link l.val).held = [a, b])
    (hblocks : a.blocks b = true) : exec (.enqueueRetry l) s = .next (s.tryHeld l.val a).norm :=
  exec_enqueueRetry hlive (es := [a]) (by rw [hheld, pushers_pair, if_pos hblocks, pushOrder_singleton])

theorem exec_enqueueRetry_of_two (hlive : s.live = true) {a b : HeldReq} (hheld : (s.link l.val).held = [a, b])
    (hblocks : a.blocks b = false) (hrank : b.rank < a.rank) :
    exec (.enqueueRetry l) s = .next ((s.tryHeld l.val b).tryHeld l.val a).norm :=
  exec_enqueueRetry hlive (es := [b, a])
    (by rw [hheld, pushers_pair, if_neg (by rw [hblocks]; exact Bool.false_ne_true), pushOrder_pair hrank])

end

/-! ### A read alone in the receive buffer (R77, R80) -/

section
variable {s : State} {l : Fin 16} {e : HeldReq}

/-- Only a link with the caching role may send a caching request (R59). -/
theorem State.caching_of_checks {p : Nat} (hop : opCaching e.op = true)
    (hchecks : failures (s.enqCheck l.val p e.op e.h) = []) : (s.link l.val).roleCaching = true := by
  obtain ⟨q, hq⟩ : ∃ q, q ∈ reqParts e.op e.h := by
    rcases reqParts_cases e.op e.h with ⟨a, n, hparts⟩ | ⟨a, m, n, hparts, -⟩
    · exact ⟨_, hparts ▸ List.mem_cons_self⟩
    · exact ⟨_, hparts ▸ List.mem_cons_self⟩
  have hpass : s.partCheck l.val p e.op e.h q = none :=
    eq_none_of_failures_nil hchecks _ (List.mem_map_of_mem hq)
  have hform : s.opcodeOk l.val e.op e.h = true := by
    by_contra hbad
    unfold State.partCheck at hpass
    dsimp only at hpass
    split at hpass
    · cases hpass
    · rw [if_pos (by simp [hbad])] at hpass
      cases hpass
  simp only [State.opcodeOk, hop, Bool.not_true, Bool.false_or, Bool.and_eq_true] at hform
  exact hform.1

/-- A request of one part that finds its entry free enters its queue and leaves the receive buffer. -/
theorem State.tryHeld_of_room (hheld : (s.link l.val).held = [e]) (hop : e.op = opRdShared)
    (hsafe : s.saf.safe = .normal) (hboot : s.power.boot = .run)
    (hothers : ∀ j, j < 16 → j ≠ l.val → (s.link j).held = []) (hvotes : s.votesOk (s.votedUsed usesDomains) = true)
    (hroom : s.poolRoom (l.val * 64 + e.h.stream.toNat) 1 = true)
    (hempty : (s.port (l.val * 64 + e.h.stream.toNat)).layby = [])
    (hchecks : failures (s.enqCheck l.val (l.val * 64 + e.h.stream.toNat) e.op e.h) = []) :
    ∃ x, x.id = e.id ∧ x.op = opRdShared ∧ s.tryHeld l.val e = (s.queued
      (queueOf (l.val * 64 + e.h.stream.toNat) e.h.tc.toNat) x (mkAns e.id opRdShared e.h false)).moved l.val e := by
  have hpost : isPostedOp e.op = false := by rw [hop]; rfl
  have hcond : e.op ≠ opWrCond := by rw [hop]; decide
  have hone : (reqParts e.op e.h).length = 1 := reqParts_of_whole (by rw [hop]; rfl)
  obtain ⟨x, hid, hxop, hput⟩ := State.putQueued_of_room (slots := e.slots) (id := e.id) hone hchecks hroom
    (fun h => absurd h hcond)
  have hfwd : (s.queued (queueOf (l.val * 64 + e.h.stream.toNat) e.h.tc.toNat) x (mkAns e.id e.op e.h false)).tryForward
      (queueOf (l.val * 64 + e.h.stream.toNat) e.h.tc.toNat) = none := by
    refine State.tryForward_of_empty_layby ?_
    rw [queueOf_div _ e.h.tc.isLt, State.port_congr (State.queued_ports _ _ _), hempty]
  simp only [if_neg hcond, hfwd, Option.getD_none] at hput
  have hplaced := (State.putReq_of_queued hvotes (State.answersHalted_of_running hsafe hboot) hpost).trans hput
  refine ⟨x, hid, hxop.trans hop, ?_⟩
  rw [← hop]
  refine State.tryHeld_of_no_rivals (fun j hj hne => hothers j (List.mem_range.1 hj) hne) (by simp [hheld]) ?_ ?_ hplaced
  · have hwant := State.wantShared_le (s := s) (l := l.val) (e := e)
    obtain ⟨-, hshared⟩ := State.poolRoom_iff.1 hroom
    omega
  · rw [State.wantLayby_of_not_write hpost hcond]
    exact Nat.zero_le _

/-- The receive buffer is empty once its only request has entered its queue. -/
theorem State.moved_queued_held (hheld : (s.link l.val).held = [e]) (hcrossed : e.crossed = false)
    (hrole : (s.link l.val).roleCaching = true) (q : Nat) (x : QEnt) (a : Ans) :
    (((s.queued q x a).moved l.val e).link l.val).held = [] := by
  have hent : Entered s (s.queued q x a) := (Entered.pushEnt s q x).trans (Entered.pushAns _ q a)
  obtain ⟨hcore, -, -⟩ := hent.counted.sameTags l.val
  obtain ⟨y, hy⟩ := (s.queued q x a).moved_link l.val hcrossed (Link.used_of_core hcore (.inr hrole))
  have hkept : ((s.queued q x a).link l.val).core.held = (s.link l.val).core.held := congrArg Link.held hcore
  have hheld' : ((s.queued q x a).link l.val).held = [e] := hkept.trans hheld
  rw [hy]
  simp [Link.withRx, Link.dropHeld, hheld']

end

/-! ### Waiting transactions (R93, R103, R106, R107) -/

section
variable {s : State}

theorem State.chainNext_of_free {line k : Nat} {r : List Nat} {t : Slot} (hchain : s.chain line = k :: r)
    (hopen : s.txOpen line = false) (hvictim : s.victimOf line = none) (hslot : (s.setChain line r).slot k = some t) :
    s.chainNext line = ((s.setChain line r).letIn k { t with phase := .lookup }).settle := by
  simp [State.chainNext, hopen, hvictim, hchain, hslot]

theorem exec_waitChainAdvance_of_chained {line : BitVec 30} {u : State} (hchain : s.chain line.toNat ≠ [])
    (h : s.chainNext line.toNat = u) : exec (.waitChainAdvance line) s = .next u.norm := by
  have hdone : execWaitChainAdvance line s = State.done u := by
    rw [execWaitChainAdvance, if_neg (by simpa using hchain), h]
  exact hdone

theorem exec_filterRetry_of_admits (hadmits : s.admits = true) (slice : Fin 8) (set : Fin 256) :
    exec (.filterRetry slice set) s = .next ((forEach (fun h s => s.retryOne h)
      (s.home.heldSet.filter (fun h => h.1 == slice.val * 256 + set.val)) s).settle).norm := by
  have hdone : execFilterRetry slice set s = State.done ((forEach (fun h s => s.retryOne h)
      (s.home.heldSet.filter (fun h => h.1 == slice.val * 256 + set.val)) s).settle) := by
    rw [execFilterRetry, if_pos hadmits]
  exact hdone

theorem State.tokenTake_of_parked {p k : Nat} {r : List Nat} {t : Slot} (htoken : (s.port p).missToken = none)
    (hparked : (s.port p).parked = k :: r) (hslot : s.slot k = some t) :
    s.tokenTake p = ((s.setPort p { s.port p with missToken := some k, parked := r }).setSlot k
      (some { t with dram := .reading })).dramReadIssue k t.line := by
  simp [State.tokenTake, htoken, hparked, hslot]

/-! ### Prefetches (R172, R173) -/

section
variable {port : Fin 1024} {y : PfReq} {r : List PfReq} (hpfq : (s.port port.val).pfq = y :: r)
include hpfq

theorem exec_prefetchExpire_of_waiting :
    exec (.prefetchExpire port) s =
      .next ((s.setPort port.val { s.port port.val with pfq := r }).count 0x2F (y.attr port.val)).norm := by
  have hdone : execPrefetchExpire port s =
      State.done ((s.setPort port.val { s.port port.val with pfq := r }).count 0x2F (y.attr port.val)) := by
    simp [execPrefetchExpire, hpfq]
  exact hdone

/-- A prefetch enters its slice in an fc in which no read competes for the inlet, with a slot and a token. -/
theorem State.pfIssue_of_wins {x : Nat × State} {u : State} (hadmits : s.admits = true) (honline : s.offline = false)
    (hinlet : s.inletLinks (sliceOf y.line) = [])
    (hwins : s.wins (730 + sliceOf y.line) 1024 (s.pfCands (sliceOf y.line)) (port.val, 0) = true)
    (hslot : s.takeSlot (sliceOf y.line) .prefetch = some x) (htoken : x.2.pfToken port.val = some u) :
    s.pfIssue port.val = ((((u.setPort port.val { u.port port.val with pfq := r }).granted (730 + sliceOf y.line) 1024
      port.val).count 0x2E (y.slot port.val).attr).register x.1 (y.slot port.val)).settle := by
  simp [State.pfIssue, hpfq, hadmits, honline, hinlet, hwins, hslot, htoken]

end

end

/-! ### The statement -/

/-- Settles O26: the pushes in the order of their ranks; each other command by what waits for it. -/
theorem waitingGoOn : Obligations.WaitingGoOn := by
  refine ⟨fun s l hlive => ⟨fun e hheld => exec_enqueueRetry_of_one hlive hheld,
      fun a b hheld hblocks => exec_enqueueRetry_of_blocked hlive hheld hblocks,
      fun a b hheld hblocks hrank => exec_enqueueRetry_of_two hlive hheld hblocks hrank,
      fun e hheld hop hcrossed hsafe hboot hothers hvotes => ?alone⟩,
    ⟨fun s line k r t hchain hopen hvictim hslot => ?chain,
      fun s slice set hadmits => exec_filterRetry_of_admits hadmits slice set,
      fun s port k r t htoken hparked hslot => ?token⟩,
    fun s port y r hpfq => ⟨exec_prefetchExpire_of_waiting hpfq,
      fun x u hadmits honline hinlet hwins hslot htoken => ?prefetch⟩⟩
  case alone =>
    intro p q hroom hempty hchecks
    rw [← hop] at hchecks
    obtain ⟨x, hid, hxop, hmoved⟩ := State.tryHeld_of_room hheld hop hsafe hboot hothers hvotes hroom hempty hchecks
    have hrole := State.caching_of_checks (by rw [hop]; rfl) hchecks
    have hqueue (j : Nat) := (State.queue_congr (State.moved_queues (s.queued q x (mkAns e.id opRdShared e.h false)) l.val hcrossed)
      j).trans (State.queued_queue_of_any s q x _ j)
    have hhome := (State.moved_home (s.queued q x (mkAns e.id opRdShared e.h false)) l.val hcrossed).trans
      (State.queued_home q x _)
    refine ⟨_, x, (exec_enqueueRetry_of_one hlive hheld).trans (by rw [hmoved]), ?_, hid, hxop, ?_, fun j hj => ?_, ?_⟩
    · rw [State.norm_link]
      exact State.moved_queued_held hheld hcrossed hrole q x _
    · rw [State.norm_queue]
      exact (hqueue q).trans (if_pos rfl)
    · rw [State.norm_queue]
      exact (hqueue j).trans (if_neg hj)
    · simp only [State.norm, q, p, hhome]
  case chain =>
    exact exec_waitChainAdvance_of_chained (by simp [hchain]) (State.chainNext_of_free hchain hopen hvictim hslot)
  case token =>
    exact congrArg State.done (State.tokenTake_of_parked htoken hparked hslot)
  case prefetch =>
    exact congrArg State.done (State.pfIssue_of_wins hpfq hadmits honline hinlet hwins hslot htoken)

end Sys2Proof.Machine
end
